-- ==== Sys2Proof/Word.lean ====
section
/-! DEFINITION. The word types of the block: what the spec treats as bits (R6, R7, R26, R48), and the ROM level, which is
one of seven (R26). -/

namespace Sys2Proof

/-- A command word `cmd[47:0]`, bit 0 least significant (R48). -/
abbrev CmdWord := BitVec 48

/-- A palette index, one of the 64 colours of the master palette (R6 `COLOR_W`, R10). -/
abbrev Color := BitVec 6

/-- A four-bit shader_state counter: `spShadow`, `bgShadow` or `phase` (R6, R11). -/
abbrev Count := BitVec 4

/-- The second ROM coordinate, 0..127; bit 6 selects the shadow half (R26, R27). -/
abbrev RomIndex := BitVec 7

/-- The first ROM coordinate, 0..6. Level 7 is unpopulated and has no value here (R26, R40, U6). -/
abbrev Level := Fin 7

end Sys2Proof
end

