-- ==== Sys2Proof/Config.lean ====
section
/-! DEFINITION. The implementation parameters of R6, with the values this hardware takes, and the two free values the
spec leaves open (U8). The parameters `LAT`, `HOST_CLEARS_AT_FRAME_START` and `N_INSTANCES` are not constants of the
block: see notes/assumptions/6.md, 7.md and 8.md. -/

namespace Sys2Proof.Config

/-- `NEUTRAL`, the identity level (R6). -/
abbrev neutral : Nat := 3
/-- `BLACK`, the canonical black index (R6, R10). -/
abbrev black : Nat := 0x2D
/-- `STEP`, one brightness step (R6). -/
abbrev step : Nat := 0x10
/-- `BRIGHT_CEIL`, the strict ceiling of the brighten guard (R6, U7). -/
abbrev brightCeil : Nat := 0x3F
/-- `SP_BUMP`, the sprite shadow increment (R6). -/
abbrev spBump : Nat := 5
/-- `SP_MAX`, the sprite shadow ceiling (R6). -/
abbrev spMax : Nat := 9
/-- `BG_SET`, the background shadow start value (R6; "~3" is exactly 3, C4). -/
abbrev bgSet : Nat := 3
/-- `PHASE_MAX` (R6). -/
abbrev phaseMax : Nat := 14
/-- `PHASE_PEAK` (R6). -/
abbrev phasePeak : Nat := 7
/-- `EDGE_COLS`, the columns always edge-reset (R6, D11). -/
abbrev edgeCols : Nat := 2
/-- `MASK_COLS`, the columns edge-reset while the left mask is active (R6, D11). -/
abbrev maskCols : Nat := 9
/-- `LOW_COLOR`, the highest colour routed to the shadow half (R6, C6). -/
abbrev lowColor : Nat := 0x10
/-- `EXEMPT_NIBBLE`, the low nibble exempt from the brightness curve (R6). -/
abbrev exemptNibble : Nat := 10

/-- What `rsp_status` shows while `rsp_valid` is 0: any value (R24, U8), so a FREE VALUE. The argument is the model's
place in the input list, so that two such moments may show different values. See notes/assumptions/5.md. -/
opaque idleStatus : Nat → BitVec 2

/-- What `rsp_data` shows while `rsp_valid` is 0: any value (R24, U8), so a FREE VALUE. See notes/assumptions/5.md. -/
opaque idleData : Nat → BitVec 6

end Sys2Proof.Config
end

