-- ==== Sys2Proof/Machine/Response.lean ====
section
/-! DEFINITION. The response of a command and the cause codes of `IllegalCommand` (R55, R57, R86), with the values the
response ports carry. -/

namespace Sys2Proof.Machine

/-- Why a word is illegal, in priority order (R55, R86, R89). -/
inductive Cause where
  /-- Cause 1: `op` is 6 or 7. -/
  | reservedOpcode
  /-- Cause 2: a must-be-zero bit of the command's format is 1. -/
  | reservedBits
  /-- Cause 3: `LUT` with `level` = 7. -/
  | romLevel
  deriving DecidableEq, Repr

/-- The response as the sum type R57 allows. -/
inductive Response where
  /-- `DONE`: the command has no result. -/
  | done
  /-- `DATA`: a palette index. -/
  | data (v : Color)
  /-- `ERR`: the word was illegal. -/
  | err (c : Cause)
  deriving DecidableEq, Repr

/-- The cause code, zero-extended to the width of `rsp_data` (R57, R86). -/
def causeCode : Cause → BitVec 6
  | .reservedOpcode => 1
  | .reservedBits => 2
  | .romLevel => 3

/-- The value of `rsp_status` while this response is presented (R57); 3 is never produced. -/
def responseStatus : Response → BitVec 2
  | .done => 0
  | .data _ => 1
  | .err _ => 2

/-- The value of `rsp_data` while this response is presented (R57). -/
def responseData : Response → BitVec 6
  | .done => 0
  | .data v => v
  | .err c => causeCode c

end Sys2Proof.Machine
end

