-- ==== Sys2Proof/Syntax.lean ====
section
/-! DEFINITION. The commands of the block: one constructor per row of spec/opcode_table.json (R53), and the ten operands
of format P (R49). -/

namespace Sys2Proof

/-- The operands of format P, in the field order of R49 (`spIndex` is one of them, C3). -/
structure Pixel where
  scanLine : BitVec 9
  fineY    : BitVec 3
  dot      : BitVec 9
  fineX    : BitVec 3
  bgIndex  : BitVec 2
  bgColor  : Color
  spIndex  : BitVec 2
  spColor  : Color
  decision : Bool
  showLeft : Bool
  deriving DecidableEq, Repr

/-- A command (R53). -/
inductive Instr where
  /-- `NOP` (R81). -/
  | nop
  /-- `SHADE.STD` (R61). -/
  | shadeStd (p : Pixel)
  /-- `SHADE.SPC` (R64). -/
  | shadeSpc (p : Pixel)
  /-- `CLRST` (R82). -/
  | clrst
  /-- `CFG fxDither, fxTransparency` (R83). -/
  | cfg (fxDither fxTransparency : Bool)
  /-- `LUT level, index` (R84). -/
  | lut (level : BitVec 3) (index : RomIndex)
  deriving DecidableEq, Repr

/-- The mnemonic of a command, as R53 and spec/opcode_table.json spell it. -/
def Instr.mnemonic : Instr → String
  | .nop => "NOP"
  | .shadeStd _ => "SHADE.STD"
  | .shadeSpc _ => "SHADE.SPC"
  | .clrst => "CLRST"
  | .cfg _ _ => "CFG"
  | .lut _ _ => "LUT"

end Sys2Proof
end

