-- ==== Sys2Proof/WellFormed.lean ====
section
/-! DEFINITION. Which commands have a legal word. The field widths exclude every operand out of range (R54, R98); the one
operand value the table's `constraint` excludes is level 7 of `LUT` (R52, R55). -/

namespace Sys2Proof

/-- The command is one a legal word encodes: `LUT` needs `level` in 0..6 (R52), nothing else is constrained (R55). -/
def Instr.wellFormed : Instr → Bool
  | .nop => true
  | .shadeStd _ => true
  | .shadeSpc _ => true
  | .clrst => true
  | .cfg _ _ => true
  | .lut level _ => level != 7

end Sys2Proof
end

