-- ==== Sys2Proof/Decode.lean ====
section
/-! DEFINITION. The command decoder, total on 48-bit words and rejecting by cause (R48 to R56), and the encoder written
from the same tables. -/

namespace Sys2Proof

/-- `op = cmd[47:45]` (R48). -/
def opField (w : CmdWord) : BitVec 3 := w.extractLsb' 45 3

/-- The must-be-zero bits of format Z, `cmd[44:0]` (R50). -/
def mbzZ (w : CmdWord) : BitVec 45 := w.extractLsb' 0 45

/-- The must-be-zero bits of format P, `cmd[44:42]` (R49). -/
def mbzP (w : CmdWord) : BitVec 3 := w.extractLsb' 42 3

/-- The must-be-zero bits of format C, `cmd[44:2]` (R51). -/
def mbzC (w : CmdWord) : BitVec 43 := w.extractLsb' 2 43

/-- The must-be-zero bits of format L, `cmd[44:10]` (R52). -/
def mbzL (w : CmdWord) : BitVec 35 := w.extractLsb' 10 35

/-- The ten fields of format P (R49). -/
def pixelOf (w : CmdWord) : Pixel where
  scanLine := w.extractLsb' 33 9
  fineY    := w.extractLsb' 30 3
  dot      := w.extractLsb' 21 9
  fineX    := w.extractLsb' 18 3
  bgIndex  := w.extractLsb' 16 2
  bgColor  := w.extractLsb' 10 6
  spIndex  := w.extractLsb' 8 2
  spColor  := w.extractLsb' 2 6
  decision := w.getLsbD 1
  showLeft := w.getLsbD 0

/-- `level = cmd[9:7]` of format L (R52). -/
def levelField (w : CmdWord) : BitVec 3 := w.extractLsb' 7 3

/-- `index = cmd[6:0]` of format L (R52). -/
def indexField (w : CmdWord) : RomIndex := w.extractLsb' 0 7

/-- Decoding, in the priority order of R89: first the opcode, then the must-be-zero bits of its format, then the level of
`LUT` (R53, R55). -/
def decode (w : CmdWord) : Except Machine.Cause Instr :=
  if opField w = 0 then
    if mbzZ w = 0 then .ok .nop else .error .reservedBits
  else if opField w = 1 then
    if mbzP w = 0 then .ok (.shadeStd (pixelOf w)) else .error .reservedBits
  else if opField w = 2 then
    if mbzP w = 0 then .ok (.shadeSpc (pixelOf w)) else .error .reservedBits
  else if opField w = 3 then
    if mbzZ w = 0 then .ok .clrst else .error .reservedBits
  else if opField w = 4 then
    if mbzC w = 0 then .ok (.cfg (w.getLsbD 1) (w.getLsbD 0)) else .error .reservedBits
  else if opField w = 5 then
    if mbzL w = 0 then
      if levelField w = 7 then .error .romLevel else .ok (.lut (levelField w) (indexField w))
    else .error .reservedBits
  else .error .reservedOpcode

/-- A field's value placed with its bit 0 at bit `at_` of the word. -/
def place {n : Nat} (v : BitVec n) (at_ : Nat) : CmdWord := v.setWidth 48 <<< at_

/-- The word of format P, by the formula of R49. -/
def encodePixel (op : BitVec 3) (p : Pixel) : CmdWord :=
  place op 45 ||| place p.scanLine 33 ||| place p.fineY 30 ||| place p.dot 21 ||| place p.fineX 18 |||
  place p.bgIndex 16 ||| place p.bgColor 10 ||| place p.spIndex 8 ||| place p.spColor 2 |||
  place (BitVec.ofBool p.decision) 1 ||| place (BitVec.ofBool p.showLeft) 0

/-- The word of a command (R49 to R53). -/
def encode : Instr → CmdWord
  | .nop => place (0 : BitVec 3) 45
  | .shadeStd p => encodePixel 1 p
  | .shadeSpc p => encodePixel 2 p
  | .clrst => place (3 : BitVec 3) 45
  | .cfg d t => place (4 : BitVec 3) 45 ||| place (BitVec.ofBool d) 1 ||| place (BitVec.ofBool t) 0
  | .lut level index => place (5 : BitVec 3) 45 ||| place level 7 ||| place index 0

/-- A row of the opcode map of R53: a word is this command when `w &&& mask = matchBits` (and, for `LUT`, its level is not 7). -/
structure OpcodeRow where
  mnemonic  : String
  matchBits : CmdWord
  mask      : CmdWord
  deriving DecidableEq, Repr

/-- The match and mask columns of R53. -/
def opcodeMap : List OpcodeRow :=
  [ ⟨"NOP",       0x000000000000, 0xFFFFFFFFFFFF⟩,
    ⟨"SHADE.STD", 0x200000000000, 0xFC0000000000⟩,
    ⟨"SHADE.SPC", 0x400000000000, 0xFC0000000000⟩,
    ⟨"CLRST",     0x600000000000, 0xFFFFFFFFFFFF⟩,
    ⟨"CFG",       0x800000000000, 0xFFFFFFFFFFFC⟩,
    ⟨"LUT",       0xA00000000000, 0xFFFFFFFFFC00⟩ ]

/-- The word is the row's command: the match and mask test of R53, with its extra condition for `LUT`. -/
def rowMatches (r : OpcodeRow) (w : CmdWord) : Bool :=
  (w &&& r.mask == r.matchBits) && (r.mnemonic != "LUT" || levelField w != 7)

/-- The command word whose low `nbits` bits are those of `w`, every bit above them 0. The word is one parallel value with
bit 0 least significant, so the opcode table's bit numbers are the word's own (R37, R48). -/
def tableWord (nbits w : Nat) : CmdWord := BitVec.ofNat 48 (w % 2 ^ nbits)

/-- The command the decoder reads from a word given by the opcode table's bit numbers. -/
def decodeTableWord (nbits w : Nat) : Option Instr :=
  match decode (tableWord nbits w) with
  | .ok i => some i
  | .error _ => none

end Sys2Proof
end

