-- ==== Sys2Proof/Machine/Operands.lean ====
section
/-! DEFINITION. How commands form values from their operands: zero-extension, ROM coordinates and the arithmetic on naturals
the rules use (R7, R54). -/

namespace Sys2Proof.Machine

/-- `zext_7`: a colour as the ROM index of its bright entry (R27, R54). -/
def brightIndex (c : Color) : RomIndex := c.setWidth 7

/-- `64 + color`, the ROM index of its shadow entry, formed by the datapath (R27, R54). -/
def shadowIndex (c : Color) : RomIndex := 64 + c.setWidth 7

/-- The ROM level a three-bit operand names; none for level 7 (R52, R84). -/
def levelOf (level : BitVec 3) : Option Level :=
  if h : level.toNat < 7 then some ⟨level.toNat, h⟩ else none

/-- `min(6, max(0, pshift))` as a ROM level (R69 (e)). -/
def clampLevel (pshift : Nat) : Level := ⟨min 6 (max 0 pshift), by omega⟩

/-- `absdiff(a, b)` (R7). -/
def absdiff (a b : Nat) : Nat := if b ≤ a then a - b else b - a

/-- `(scanLine + dot + fineX + fineY) & 1 == 1`, on naturals (R69 (d), D24). -/
def oddParity (p : Pixel) : Bool :=
  (p.scanLine.toNat + p.dot.toNat + p.fineX.toNat + p.fineY.toNat) % 2 == 1

/-- `min(9, x + 5)`, the sum formed without wrap (R66). -/
def bump (x : Count) : Count := BitVec.ofNat 4 (min Config.spMax (x.toNat + Config.spBump))

/-- One guarded decrement: `x - 1` unless `x` is 0 (R67, R68). -/
def decr (x : Count) : Count := if x ≠ 0 then x - 1 else x

/-- The brightness curve `5 - absdiff(phase, 7) / 3`, floor division (R69 (b)). -/
def curve (phase : Count) : Nat := 5 - absdiff phase.toNat Config.phasePeak / 3

/-- The colour is in the column exempt from the brightness curve: its low nibble is 10 (R69 (b)). -/
def exempt (c : Color) : Bool := c.toNat % 16 == Config.exemptNibble

end Sys2Proof.Machine
end

