-- ==== Sys2Proof/Machine/State.lean ====
section
/-! DEFINITION. The state of one copy of the block, as plain data: the shader_state registers and the configuration register
of R11, the response presented last (R57), and the host's input list with the model's place in it (R18). The ROM is a
constant and no field (R35): see Machine/Rom.lean and notes/assumptions/3.md. -/

namespace Sys2Proof.Machine

/-- The shader_state register file (R11 to R15). -/
structure ShaderState where
  /-- The sprite shadow counter (R12). -/
  spShadow  : Count
  /-- The background shadow counter (R13). -/
  bgShadow  : Count
  /-- The background colour of the previous shaded pixel (R14). -/
  lastColor : Color
  /-- The brightness-curve counter (R15). -/
  phase     : Count
  deriving DecidableEq, Repr

/-- The control register `CFG` (R17). -/
structure CfgReg where
  fxDither       : Bool
  fxTransparency : Bool
  deriving DecidableEq, Repr

/-- What reaches the block from outside, in the order it arrives. -/
inductive HostInput where
  /-- The host issues a command word (R5). -/
  | command (w : CmdWord)
  /-- The platform delivers `RESET` (R100): between commands, or while the word given is in progress, which is then
  abandoned without a response. -/
  | reset (inProgress : Option CmdWord)
  deriving DecidableEq, Repr

/-- The state of the block and of its input list. -/
structure State where
  /-- The four `S` registers. -/
  shader : ShaderState
  /-- The `CFG` register. -/
  cfg    : CfgReg
  /-- The response presented last; none exactly while `rsp_valid` is 0 (R57). No command reads it (R22). -/
  rsp    : Option Response
  /-- The host's command list, with the platform's resets in it (R18, R100). -/
  inputs : List HostInput
  /-- The model's "pc": the index of the next input (R18). -/
  pc     : Nat
  deriving DecidableEq, Repr

/-- Why the machine stops with a fault: never. A legal command raises nothing (R85), an illegal word is answered with a
response and the block goes on (R90), so there is no constructor, nobody raises one, and that is neither safe nor unsafe. -/
inductive Fault where
  deriving DecidableEq, Repr

/-- Why the machine has no meaning for a command. -/
inductive Refusal where
  /-- Raised by an arm of `exec` whose command is not modelled yet; safe. No arm raises it: all six have their meaning. -/
  | notModelled (mnemonic : String)
  deriving DecidableEq, Repr

/-- The machine right after `RESET` (R24, R100), with no input listed and the place at 0 (DESIGN CHOICE,
notes/assumptions/2.md). -/
def State.reset : State where
  shader := ⟨0, 0, 0, 0⟩
  cfg    := ⟨false, true⟩
  rsp    := none
  inputs := []
  pc     := 0

end Sys2Proof.Machine
end

