-- ==== Sys2Proof/Machine/Ops.lean ====
section
/-! DEFINITION. The named operations on the state: register writes, the response, taking `IllegalCommand`, the `RESET` event,
and reading and advancing the input list. Returning from an exception is no operation of this block: there is no return
command and nothing to restore (R91). -/

namespace Sys2Proof.Machine

/-- `S.spShadow <- v` (R8). -/
def ShaderState.setSpShadow (r : ShaderState) (v : Count) : ShaderState := { r with spShadow := v }

/-- `S.bgShadow <- v` (R8). -/
def ShaderState.setBgShadow (r : ShaderState) (v : Count) : ShaderState := { r with bgShadow := v }

/-- `S.lastColor <- v` (R8). -/
def ShaderState.setLastColor (r : ShaderState) (v : Color) : ShaderState := { r with lastColor := v }

/-- `S.phase <- v` (R8). -/
def ShaderState.setPhase (r : ShaderState) (v : Count) : ShaderState := { r with phase := v }

/-- Write the whole register file. -/
def State.setShader (s : State) (r : ShaderState) : State := { s with shader := r }

/-- Write both bits of `CFG`, always together (R17, R83). -/
def State.setCfg (s : State) (c : CfgReg) : State := { s with cfg := c }

/-- Present a response (R57). -/
def State.respond (s : State) (r : Response) : State := { s with rsp := some r }

/-- The register file with all four registers 0 (R82). -/
def clearedShader (r : ShaderState) : ShaderState :=
  (((r.setSpShadow 0).setBgShadow 0).setLastColor 0).setPhase 0

/-- Taking `IllegalCommand`: the response is `ERR` with the cause and nothing else changes; no register saves anything and
control goes nowhere (R87, R90). See notes/assumptions/1.md. -/
def raiseIllegal (c : Cause) (s : State) : State := s.respond (.err c)

/-- The `RESET` event: every piece of the block's state takes its value of R24, `rsp_valid` becomes 0 (R100). The host's
input list and the place in it are not the block's and stay. -/
def platformReset (s : State) : State := { State.reset with inputs := s.inputs, pc := s.pc }

/-- The input the block takes next (R18). -/
def fetch (s : State) : Option HostInput := s.inputs[s.pc]?

/-- Move on to the next input, as after every command, an illegal one too (R18). -/
def advance (s : State) : State := { s with pc := s.pc + 1 }

/-- The state with one command word put where the next input is read. A list shorter than the place is filled up with
`NOP` words, which lie before the place and are never read. -/
def placeCommand (s : State) (w : CmdWord) : State :=
  { s with
    inputs := s.inputs.take s.pc ++ List.replicate (s.pc - s.inputs.length) (.command 0) ++
      .command w :: s.inputs.drop (s.pc + 1) }

/-- `rsp_valid`: 1 while a response is presented (R57). -/
def State.rspValid (s : State) : Bool := s.rsp.isSome

/-- `rsp_status`: the response's, and a free value while `rsp_valid` is 0 (R57, U8). -/
def State.rspStatus (s : State) : BitVec 2 :=
  match s.rsp with
  | some r => responseStatus r
  | none => Config.idleStatus s.pc

/-- `rsp_data`: the response's, and a free value while `rsp_valid` is 0 (R57, U8). -/
def State.rspData (s : State) : BitVec 6 :=
  match s.rsp with
  | some r => responseData r
  | none => Config.idleData s.pc

end Sys2Proof.Machine
end

