-- ==== Sys2Proof/Machine/Rom.lean ====
section
/-! DEFINITION. The palette_shade_cache ROM: the build algorithm of R28 to R31 and the read primitive of R36. -/

namespace Sys2Proof.Machine

/-- The brighten loop of R29, run `n` times. -/
def brighten : Nat → Nat → Nat
  | 0, bright => bright
  | n + 1, bright =>
    brighten n (if bright + Config.step < Config.brightCeil then bright + Config.step else bright)

/-- The darken loop of R30, run at most `n` times on (`brightColor`, `shadowColor`); it ends at once when the floor is met. -/
def darken : Nat → Nat × Nat → Nat × Nat
  | 0, colors => colors
  | n + 1, (bright, shadow) =>
    if Config.step ≤ bright then darken n (bright - Config.step, shadow - Config.step)
    else (bright, Config.black)

/-- (`brightColor`, `shadowColor`) of base colour `i` at a level (R28): the brighten loop runs `level - 3` times, the darken
loop `3 - level` times, both differences being 0 where negative. -/
def romPair (level i : Nat) : Nat × Nat :=
  let bright := brighten (level - Config.neutral) i
  darken (Config.neutral - level) (bright, bright)

/-- `RomRead(level, index)` (R36): the bright entry for an index below 64, the shadow entry of colour `index - 64` from 64 on
(R27, R31). -/
def romRead (level : Level) (index : RomIndex) : Color :=
  if index.toNat < 64 then BitVec.ofNat 6 (romPair level.val index.toNat).1
  else BitVec.ofNat 6 (romPair level.val (index.toNat - 64)).2

/-- The flat address `level * 128 + index` (R26, R52). -/
def flatAddress (level : Level) (index : RomIndex) : Nat := level.val * 128 + index.toNat

/-- The entry at a flat address; none from 0x380 on, where nothing is populated (R40). -/
def romAt (addr : Nat) : Option Color :=
  if h : addr / 128 < 7 then some (romRead ⟨addr / 128, h⟩ (BitVec.ofNat 7 (addr % 128))) else none

end Sys2Proof.Machine
end

