-- ==== Sys2Proof/Machine/Control.lean ====
section
/-! DEFINITION. The control family: `NOP`, `CLRST`, `CFG`, `LUT` (R81 to R84). -/

namespace Sys2Proof.Machine

/-- `NOP` (R81): nothing; in particular no counter decays (R16 (e)). -/
def execNop (s : State) : Host.Outcome State Fault Refusal := .next (s.respond .done)

/-- `CLRST` (R82): the four `S` registers become 0; `CFG` stays. -/
def execClrst (s : State) : Host.Outcome State Fault Refusal :=
  .next ((s.setShader (clearedShader s.shader)).respond .done)

/-- `CFG` (R83): both option bits are written; `S` stays. -/
def execCfg (fxDither fxTransparency : Bool) (s : State) : Host.Outcome State Fault Refusal :=
  .next ((s.setCfg ⟨fxDither, fxTransparency⟩).respond .done)

/-- `LUT` (R84): one ROM entry; level 7 takes `IllegalCommand` with cause 3. -/
def execLut (level : BitVec 3) (index : RomIndex) (s : State) : Host.Outcome State Fault Refusal :=
  match levelOf level with
  | some l => .next (s.respond (.data (romRead l index)))
  | none => .next (raiseIllegal .romLevel s)

end Sys2Proof.Machine
end

