-- ==== Sys2Proof/Machine/Flags.lean ====
section
/-! DEFINITION. The block has no flags or condition codes (R19). What a `SHADE.SPC` computes in their place is call-local: the
four values of R64, and the conditions its steps test. -/

namespace Sys2Proof.Machine

/-- The call-local values of a `SHADE.SPC`; they vanish at its end (R19, R64). -/
structure Locals where
  mute   : Bool
  dither : Bool
  /-- The level for the output lookup. -/
  pshift : Level
  /-- The ROM index candidate. -/
  color  : RomIndex
  deriving DecidableEq, Repr

/-- The pixel takes the edge reset: `dot < 2 or (showLeft == 0 and dot < 9)` (R65, D11). -/
def onEdge (p : Pixel) : Bool :=
  decide (p.dot.toNat < Config.edgeCols) || (!p.showLeft && decide (p.dot.toNat < Config.maskCols))

/-- The dark test: the level-1 shadow entry of the colour is `BLACK` (R67, R68, D12). -/
def isDark (c : Color) : Bool := romRead 1 (shadowIndex c) == BitVec.ofNat 6 Config.black

/-- A shadow counter is nonzero (R68, R69 (c)). -/
def shadowActive (r : ShaderState) : Bool := r.spShadow != 0 || r.bgShadow != 0

/-- The background pixel will be shown, the outer condition of step 5 (R69). -/
def backgroundShown (c : CfgReg) (p : Pixel) : Bool :=
  !(p.decision || (c.fxTransparency && p.spIndex != 0))

end Sys2Proof.Machine
end

