-- ==== Sys2Proof/Machine/Spectral.lean ====
section
/-! DEFINITION. The spectral shader family: `SHADE.SPC`, its six steps in their fixed order (R64 to R71). -/

namespace Sys2Proof.Machine

/-- A `SHADE.SPC` in progress: the register file and the call-local values. -/
structure Pass where
  regs : ShaderState
  loc  : Locals
  deriving DecidableEq, Repr

/-- The call-local values at the start of the command (R64, D15, D16). -/
def passStart (p : Pixel) (c : CfgReg) (r : ShaderState) : Pass where
  regs := r
  loc := { mute := false, dither := c.fxDither, pshift := 3, color := brightIndex p.bgColor }

/-- Step 1, edge reset (R65). -/
def edgeStep (p : Pixel) (a : Pass) : Pass :=
  if onEdge p then
    { regs := ((a.regs.setPhase (if p.bgIndex ≠ 0 then 7 else 14)).setBgShadow 0).setLastColor p.bgColor
      loc := { a.loc with mute := true } }
  else a

/-- Step 2, sprite shadow accumulation (R66). -/
def spriteStep (p : Pixel) (a : Pass) : Pass :=
  if p.decision then { a with regs := a.regs.setSpShadow (bump a.regs.spShadow) } else a

/-- Step 3, the registers: phase tracking against colour continuity (R67, D25). -/
def trackPhase (p : Pixel) (mute : Bool) (r : ShaderState) : ShaderState :=
  if p.bgColor = r.lastColor then
    if p.bgIndex ≠ 0 then r.setPhase (decr r.phase) else r.setPhase 0
  else
    let r := r.setLastColor p.bgColor
    if mute then r
    else
      let r := r.setPhase (BitVec.ofNat 4 Config.phaseMax)
      if p.bgIndex = 0 ∧ !isDark p.bgColor then r.setBgShadow (BitVec.ofNat 4 Config.bgSet) else r

/-- Step 3 (R67). -/
def phaseStep (p : Pixel) (a : Pass) : Pass :=
  { a with regs := trackPhase p a.loc.mute a.regs }

/-- Step 4, shadow decay and dither trigger: up to two off `spShadow`, up to one off `bgShadow` (R68, R79). -/
def decayStep (p : Pixel) (a : Pass) : Pass :=
  if shadowActive a.regs then
    { regs := (a.regs.setSpShadow (decr (decr a.regs.spShadow))).setBgShadow (decr a.regs.bgShadow)
      loc := { a.loc with dither := a.loc.dither || isDark p.bgColor } }
  else a

/-- Step 5 (a), (b): the level before the shadow bias (R69). -/
def curveLevel (p : Pixel) (r : ShaderState) : Nat :=
  if exempt p.bgColor then Config.neutral else curve r.phase

/-- Step 5, brightness level selection (R69, D13, D14). -/
def levelStep (p : Pixel) (c : CfgReg) (a : Pass) : Pass :=
  if backgroundShown c p then
    let active := shadowActive a.regs
    let color := if active && decide (a.loc.color.toNat ≤ Config.lowColor) then a.loc.color + 64 else a.loc.color
    let biased := if active then curveLevel p a.regs - 1 else curveLevel p a.regs
    let pshift := if a.loc.dither && oddParity p then Config.neutral else biased
    { a with loc := { a.loc with pshift := clampLevel pshift, color := color } }
  else a

/-- Step 6, the output lookup (R70). -/
def outputColor (p : Pixel) (a : Pass) : Color :=
  romRead a.loc.pshift (if p.decision then brightIndex p.spColor else a.loc.color)

/-- Steps 1 to 5 in order (R64, R71). -/
def spectralPass (p : Pixel) (c : CfgReg) (r : ShaderState) : Pass :=
  levelStep p c (decayStep p (phaseStep p (spriteStep p (edgeStep p (passStart p c r)))))

/-- `SHADE.SPC` (R64, R71): the registers after step 4 and the colour of step 6. -/
def execShadeSpc (p : Pixel) (s : State) : Host.Outcome State Fault Refusal :=
  let a := spectralPass p s.cfg s.shader
  .next ((s.setShader a.regs).respond (.data (outputColor p a)))

end Sys2Proof.Machine
end

