-- ==== Sys2Proof/Machine/Standard.lean ====
section
/-! DEFINITION. The standard shader family: `SHADE.STD` (R61 to R63). -/

namespace Sys2Proof.Machine

/-- The multiplexer: `decision ? spColor : bgColor` (R61). -/
def standardColor (p : Pixel) : Color := if p.decision then p.spColor else p.bgColor

/-- `SHADE.STD` (R61): responds with the multiplexer's colour and touches no state. -/
def execShadeStd (p : Pixel) (s : State) : Host.Outcome State Fault Refusal :=
  .next (s.respond (.data (standardColor p)))

end Sys2Proof.Machine
end

