-- ==== Sys2Proof/Machine/Dispatch.lean ====
section
/-! DEFINITION. The meaning of every command: one arm per constructor of `Instr`. -/

namespace Sys2Proof.Machine

def exec (i : Instr) (s : State) : Host.Outcome State Fault Refusal :=
  match i with
  | .nop => Sys2Proof.Machine.execNop s
  | .shadeStd p => Sys2Proof.Machine.execShadeStd p s
  | .shadeSpc p => Sys2Proof.Machine.execShadeSpc p s
  | .clrst => Sys2Proof.Machine.execClrst s
  | .cfg fxDither fxTransparency => Sys2Proof.Machine.execCfg fxDither fxTransparency s
  | .lut level index => Sys2Proof.Machine.execLut level index s

end Sys2Proof.Machine
end

