-- ==== Sys2Proof/Machine/Issue.lean ====
section
/-! DEFINITION. What the block does with one input: decode a command word and run it, or answer an illegal one, or take
`RESET`; afterwards the place in the input list moves on (R18, R86, R90, R100). -/

namespace Sys2Proof.Machine

/-- The outcome with the place moved on, where there is a next state. -/
def advanced : Host.Outcome State Fault Refusal → Host.Outcome State Fault Refusal
  | .next s => .next (advance s)
  | .fault r => .fault r
  | .refused r => .refused r

/-- Issue a command word: run what it decodes to, or take `IllegalCommand` before any state is touched (R86). -/
def runWord (w : CmdWord) (s : State) : Host.Outcome State Fault Refusal :=
  match decode w with
  | .ok i => advanced (exec i s)
  | .error c => advanced (.next (raiseIllegal c s))

/-- Take one input. -/
def takeInput (x : HostInput) (s : State) : Host.Outcome State Fault Refusal :=
  match x with
  | .command w => runWord w s
  | .reset _ => advanced (.next (platformReset s))

/-- With no input the block holds `S` and `CFG` (R99, R101); the response stays presented too (DESIGN CHOICE,
notes/assumptions/4.md). -/
def idle (s : State) : Host.Outcome State Fault Refusal := .next s

end Sys2Proof.Machine
end

