-- ==== Sys2Proof/Machine/Step.lean ====
section
/-! DEFINITION. One step of the machine: take the next input of the list, if there is one. -/

namespace Sys2Proof.Machine

/-- One step (R5, R18, R42). -/
def step (s : State) : Host.Outcome State Fault Refusal :=
  match fetch s with
  | some x => takeInput x s
  | none => idle s

/-- The state with the word, given by the opcode table's bit numbers, issued as its next command. It stands for the host's
issuing of that command (notes/assumptions/2.md). -/
def State.withFetchWord (s : State) (nbits w : Nat) : State := placeCommand s (tableWord nbits w)

end Sys2Proof.Machine
end

