-- ==== Sys2Proof/Machine/Assembler.lean ====
section
/-! DEFINITION. The assembly notation as data: a mnemonic with its numbers in field order (R58), and the pseudo-commands (R59).
The characters of a line (digits, commas, comments) are left to whoever writes it. -/

namespace Sys2Proof.Assembler

/-- A number as a field of `n` bits; outside the field's range it is an error, not a truncation (R58). -/
def field (n v : Nat) : Option (BitVec n) := if v < 2 ^ n then some (BitVec.ofNat n v) else none

/-- A boolean is written `0` or `1` (R58). -/
def flag : Nat → Option Bool
  | 0 => some false
  | 1 => some true
  | _ => none

/-- A level is in 0..6 (R52). -/
def level (v : Nat) : Option (BitVec 3) := if v < 7 then some (BitVec.ofNat 3 v) else none

/-- The ten operands of format P, highest field first (R49, R58). -/
def pixel : List Nat → Option Pixel
  | [line, y, dot, x, bi, bc, si, sc, d, l] => do
    return ⟨← field 9 line, ← field 3 y, ← field 9 dot, ← field 3 x, ← field 2 bi, ← field 6 bc, ← field 2 si, ← field 6 sc,
      ← flag d, ← flag l⟩
  | _ => none

/-- A command by its mnemonic and operands (R58). -/
def command (mnemonic : String) (operands : List Nat) : Option Instr :=
  if mnemonic = "NOP" then (if operands = [] then some .nop else none)
  else if mnemonic = "SHADE.STD" then (pixel operands).map .shadeStd
  else if mnemonic = "SHADE.SPC" then (pixel operands).map .shadeSpc
  else if mnemonic = "CLRST" then (if operands = [] then some .clrst else none)
  else if mnemonic = "CFG" then
    match operands with
    | [d, t] => do return .cfg (← flag d) (← flag t)
    | _ => none
  else if mnemonic = "LUT" then
    match operands with
    | [l, i] => do return .lut (← level l) (← field 7 i)
    | _ => none
  else none

/-- A line: a command, or a pseudo-command with its expansion (R59). -/
def line (mnemonic : String) (operands : List Nat) : Option (List Instr) :=
  if mnemonic = "CFG.DEFAULT" then (if operands = [] then some [.cfg false true] else none)
  else if mnemonic = "INIT" then (if operands = [] then some [.clrst, .cfg false true] else none)
  else if mnemonic = "LUT.B" then
    match operands with
    | [l, c] => do return [.lut (← level l) ((← field 6 c).setWidth 7)]
    | _ => none
  else if mnemonic = "LUT.S" then
    match operands with
    | [l, c] => do return [.lut (← level l) ((← field 6 c).setWidth 7 + 64)]
    | _ => none
  else (command mnemonic operands).map ([·])

/-- The operands of a command as it is written (R58). -/
def operands : Instr → List Nat
  | .nop => []
  | .shadeStd p => ofPixel p
  | .shadeSpc p => ofPixel p
  | .clrst => []
  | .cfg d t => [d.toNat, t.toNat]
  | .lut level index => [level.toNat, index.toNat]
where
  ofPixel (p : Pixel) : List Nat :=
    [p.scanLine.toNat, p.fineY.toNat, p.dot.toNat, p.fineX.toNat, p.bgIndex.toNat, p.bgColor.toNat, p.spIndex.toNat,
      p.spColor.toNat, p.decision.toNat, p.showLeft.toNat]

end Sys2Proof.Assembler
end

