-- ==== Sys2Proof/Machine/Instances.lean ====
section
/-! DEFINITION. Several copies of the block over the one ROM: each has its own registers, options, response and command list, and
the ROM they share is constant (R25, R47, R96). The machine of Core.lean is one copy: see notes/assumptions/8.md. -/

namespace Sys2Proof.Machine

/-- Copy `k` takes its next input; the others do nothing. Where there is no copy `k`, nobody does. -/
def stepInstance (k : Nat) (copies : List State) : Host.Outcome (List State) Fault Refusal :=
  match copies[k]? with
  | none => .next copies
  | some s =>
    match step s with
    | .next t => .next (copies.set k t)
    | .fault f => .fault f
    | .refused r => .refused r

end Sys2Proof.Machine
end

