-- ==== Sys2Proof/Machine/RomImage.lean ====
section
/-! DEFINITION. The ROM image of R33, entry by entry, transcribed from the spec's listing. One number is one line of the listing:
its sixteen entries as the listing prints them, two hexadecimal digits each, the first entry highest. -/

namespace Sys2Proof.Machine

/-- Level 0 (flat addresses 0x000..0x07F). -/
def imageLevel0 : List Nat :=
  [ 0x000102030405060708090A0B0C0D0E0F,
    0x000102030405060708090A0B0C0D0E0F,
    0x000102030405060708090A0B0C0D0E0F,
    0x000102030405060708090A0B0C0D0E0F,
    0x2D2D2D2D2D2D2D2D2D2D2D2D2D2D2D2D,
    0x2D2D2D2D2D2D2D2D2D2D2D2D2D2D2D2D,
    0x2D2D2D2D2D2D2D2D2D2D2D2D2D2D2D2D,
    0x000102030405060708090A0B0C0D0E0F ]

/-- Level 1 (flat addresses 0x080..0x0FF). -/
def imageLevel1 : List Nat :=
  [ 0x000102030405060708090A0B0C0D0E0F,
    0x000102030405060708090A0B0C0D0E0F,
    0x000102030405060708090A0B0C0D0E0F,
    0x101112131415161718191A1B1C1D1E1F,
    0x2D2D2D2D2D2D2D2D2D2D2D2D2D2D2D2D,
    0x2D2D2D2D2D2D2D2D2D2D2D2D2D2D2D2D,
    0x000102030405060708090A0B0C0D0E0F,
    0x101112131415161718191A1B1C1D1E1F ]

/-- Level 2 (flat addresses 0x100..0x17F). -/
def imageLevel2 : List Nat :=
  [ 0x000102030405060708090A0B0C0D0E0F,
    0x000102030405060708090A0B0C0D0E0F,
    0x101112131415161718191A1B1C1D1E1F,
    0x202122232425262728292A2B2C2D2E2F,
    0x2D2D2D2D2D2D2D2D2D2D2D2D2D2D2D2D,
    0x000102030405060708090A0B0C0D0E0F,
    0x101112131415161718191A1B1C1D1E1F,
    0x202122232425262728292A2B2C2D2E2F ]

/-- Level 3 (flat addresses 0x180..0x1FF). -/
def imageLevel3 : List Nat :=
  [ 0x000102030405060708090A0B0C0D0E0F,
    0x101112131415161718191A1B1C1D1E1F,
    0x202122232425262728292A2B2C2D2E2F,
    0x303132333435363738393A3B3C3D3E3F,
    0x000102030405060708090A0B0C0D0E0F,
    0x101112131415161718191A1B1C1D1E1F,
    0x202122232425262728292A2B2C2D2E2F,
    0x303132333435363738393A3B3C3D3E3F ]

/-- Level 4 (flat addresses 0x200..0x27F). -/
def imageLevel4 : List Nat :=
  [ 0x101112131415161718191A1B1C1D1E1F,
    0x202122232425262728292A2B2C2D2E2F,
    0x303132333435363738393A3B3C3D3E2F,
    0x303132333435363738393A3B3C3D3E3F,
    0x101112131415161718191A1B1C1D1E1F,
    0x202122232425262728292A2B2C2D2E2F,
    0x303132333435363738393A3B3C3D3E2F,
    0x303132333435363738393A3B3C3D3E3F ]

/-- Level 5 (flat addresses 0x280..0x2FF). -/
def imageLevel5 : List Nat :=
  [ 0x202122232425262728292A2B2C2D2E2F,
    0x303132333435363738393A3B3C3D3E2F,
    0x303132333435363738393A3B3C3D3E2F,
    0x303132333435363738393A3B3C3D3E3F,
    0x202122232425262728292A2B2C2D2E2F,
    0x303132333435363738393A3B3C3D3E2F,
    0x303132333435363738393A3B3C3D3E2F,
    0x303132333435363738393A3B3C3D3E3F ]

/-- Level 6 (flat addresses 0x300..0x37F). -/
def imageLevel6 : List Nat :=
  [ 0x303132333435363738393A3B3C3D3E2F,
    0x303132333435363738393A3B3C3D3E2F,
    0x303132333435363738393A3B3C3D3E2F,
    0x303132333435363738393A3B3C3D3E3F,
    0x303132333435363738393A3B3C3D3E2F,
    0x303132333435363738393A3B3C3D3E2F,
    0x303132333435363738393A3B3C3D3E2F,
    0x303132333435363738393A3B3C3D3E3F ]

/-- The lines of the listing, one list a level. -/
def imageLevel (level : Level) : List Nat :=
  match level.val with
  | 0 => imageLevel0
  | 1 => imageLevel1
  | 2 => imageLevel2
  | 3 => imageLevel3
  | 4 => imageLevel4
  | 5 => imageLevel5
  | _ => imageLevel6

/-- `cache[level][index]` as R33 lists it. -/
def romImage (level : Level) (index : RomIndex) : Color :=
  BitVec.ofNat 6 ((imageLevel level).getD (index.toNat / 16) 0 >>> (8 * (15 - index.toNat % 16)) % 256)

end Sys2Proof.Machine
end

