-- ==== Sys2Proof/Safety.lean ====
section
/-! DEFINITION. What counts as a good state and a good run: the register ranges of R23, the mark of a run gone wrong (R87, U5),
and the premises on the host that the hazards of R104 and R106 put into words. None of them stops the machine. -/

namespace Sys2Proof.Safety

open Sys2Proof.Machine

/-- The documented ranges of R23: `spShadow <= 9`, `bgShadow <= 3`, `phase <= 14` (`lastColor <= 63` holds by width). -/
abbrev InRange (s : State) : Prop :=
  s.shader.spShadow.toNat ≤ 9 ∧ s.shader.bgShadow.toNat ≤ 3 ∧ s.shader.phase.toNat ≤ 14

/-- The tighter ranges seen between commands (R23, X4). -/
abbrev AtBoundary (s : State) : Prop :=
  s.shader.spShadow.toNat ≤ 7 ∧ s.shader.bgShadow.toNat ≤ 2 ∧ s.shader.phase.toNat ≤ 14

/-- The response presented is `ERR`. The next response replaces it, since there is no sticky error bit (R87): the mark of a
whole run is `runWentWrong`. -/
def answeredErr (s : State) : Bool :=
  match s.rsp with
  | some (.err _) => true
  | _ => false

/-- The cause of the `IllegalCommand` the next input raises; none where it raises none (R55, R86). -/
def raisedNow (s : State) : Option Cause :=
  match fetch s with
  | some (.command w) =>
    match decode w with
    | .ok _ => none
    | .error c => some c
  | _ => none

/-- The cause of the first `IllegalCommand` among `k` steps: the fault of the run, as R87 and U5 would have a model count it.
It looks at the run and not at the state, since the block keeps no record of the event (R87). -/
def runCause : Nat → State → Option Cause
  | 0, _ => none
  | k + 1, s =>
    match raisedNow s with
    | some c => some c
    | none =>
      match step s with
      | .next t => runCause k t
      | _ => none

/-- The run of `k` steps contains an `IllegalCommand` and has gone wrong, whatever legal commands follow it (R87, U5, D18). -/
def runWentWrong (k : Nat) (s : State) : Bool := (runCause k s).isSome

/-- The `SHADE.SPC` pixels of an input list, in order. -/
def spectralPixels : List HostInput → List Pixel
  | [] => []
  | .command w :: rest =>
    match decode w with
    | .ok (.shadeSpc p) => p :: spectralPixels rest
    | _ => spectralPixels rest
  | .reset _ :: rest => spectralPixels rest

/-- `q` comes after `p` in raster order within a frame: further right on the same line, or on a lower line (R104). -/
abbrev RasterAfter (p q : Pixel) : Prop :=
  (p.scanLine = q.scanLine ∧ p.dot.toNat < q.dot.toNat) ∨ p.scanLine.toNat < q.scanLine.toNat

/-- The spectral pixels of one frame's inputs are in raster order (R104): a premise on the host, which the block does not
check. -/
def inRasterOrder (inputs : List HostInput) : Prop := (spectralPixels inputs).Pairwise RasterAfter

/-- No `SHADE.STD` stands among the inputs, so the stream uses one shader (R106): a premise on the host. -/
def oneShader (inputs : List HostInput) : Prop :=
  ∀ w p, HostInput.command w ∈ inputs → decode w ≠ .ok (.shadeStd p)

end Sys2Proof.Safety
end

