-- ==== Sys2Proof/Certificates/Slice0/Obligations.lean ====
section
/-! DEFINITION. The statements for the provers, and the closed forms some of them compare the model with: written from the
spec's properties, not from the model's steps. -/

namespace Sys2Proof.Reference

open Sys2Proof.Machine

/-- What an outcome responds. -/
def responseOf : Host.Outcome State Fault Refusal → Option Response
  | .next t => t.rsp
  | .fault _ => none
  | .refused _ => none

/-- The edge columns: 0 and 1 always, 0 to 8 while the left mask is active (R65). -/
abbrev edgeColumn (p : Pixel) : Prop := p.dot.toNat ≤ 1 ∨ (p.showLeft = false ∧ p.dot.toNat ≤ 8)

/-- `spShadow` as step 4 finds it (R66). -/
def spRaised (p : Pixel) (r : ShaderState) : Nat :=
  if p.decision then min 9 (r.spShadow.toNat + 5) else r.spShadow.toNat

/-- `bgShadow` as step 4 finds it (R65, R67, with the dark test as the comparison of R73). -/
def bgRaised (p : Pixel) (r : ShaderState) : Nat :=
  if edgeColumn p then 0
  else if p.bgColor ≠ r.lastColor ∧ p.bgIndex = 0 ∧ 0x20 ≤ p.bgColor.toNat then 3
  else r.bgShadow.toNat

/-- `phase` at the end of the command (R67, R80). -/
def phaseNext (p : Pixel) (r : ShaderState) : Nat :=
  if edgeColumn p then (if p.bgIndex = 0 then 0 else 6)
  else if p.bgColor = r.lastColor then (if p.bgIndex = 0 then 0 else r.phase.toNat - 1)
  else 14

/-- The register file after a `SHADE.SPC`; the subtractions stop at 0 (R68, R72, R79). -/
def shaderNext (p : Pixel) (r : ShaderState) : ShaderState where
  spShadow  := BitVec.ofNat 4 (spRaised p r - 2)
  bgShadow  := BitVec.ofNat 4 (bgRaised p r - 1)
  lastColor := p.bgColor
  phase     := BitVec.ofNat 4 (phaseNext p r)

/-- The parity of the coordinate sum as an exclusive or of four bits (R77). -/
def parityBit (p : Pixel) : Bool :=
  p.scanLine.getLsbD 0 ^^ p.dot.getLsbD 0 ^^ p.fineX.getLsbD 0 ^^ p.fineY.getLsbD 0

/-- The brightness curve as the table of R69 lists it. -/
def curveTable (phase : Nat) : Nat :=
  if 5 ≤ phase ∧ phase ≤ 9 then 5 else if 2 ≤ phase ∧ phase ≤ 12 then 4 else 3

/-- The output level of a shown background pixel (R69). -/
def levelNext (p : Pixel) (c : CfgReg) (r : ShaderState) : Nat :=
  if (c.fxDither = true ∨ ((spRaised p r ≠ 0 ∨ bgRaised p r ≠ 0) ∧ p.bgColor.toNat < 0x20)) ∧ parityBit p = true then 3
  else
    (if p.bgColor.toNat % 16 = 10 then 3 else curveTable (phaseNext p r)) -
      (if spRaised p r - 2 ≠ 0 ∨ bgRaised p r - 1 ≠ 0 then 1 else 0)

/-- The row a colour of row `row` and column `col` reaches in `l` brightness steps (R32). -/
def climbedRow (row col l : Nat) : Nat := min (row + l) (max row (if col = 15 then 2 else 3))

/-- The bright entry of a colour, in closed form (R32). -/
def brightEntry (level i : Nat) : Nat :=
  if 3 ≤ level then 16 * climbedRow (i / 16) (i % 16) (level - 3) + i % 16
  else 16 * (i / 16 - (3 - level)) + i % 16

/-- The shadow entry of a colour, in closed form (R32). -/
def shadowEntry (level i : Nat) : Nat :=
  if 3 ≤ level then brightEntry level i
  else if 3 - level ≤ i / 16 then 16 * (i / 16 - (3 - level)) + i % 16
  else 0x2D

/-- The response of a `SHADE.SPC` without a table: sprite pixels as they are (R76), hidden background as it is (R69), else the
background moved by the level, where level 2 turns row 0 into `BLACK` (R75). -/
def spectralColor (p : Pixel) (c : CfgReg) (r : ShaderState) : Color :=
  if p.decision then p.spColor
  else if c.fxTransparency = true ∧ p.spIndex ≠ 0 then p.bgColor
  else if levelNext p c r = 2 then BitVec.ofNat 6 (shadowEntry 2 p.bgColor.toNat)
  else BitVec.ofNat 6 (brightEntry (levelNext p c r) p.bgColor.toNat)

/-- A word of 48 bits whose opcode field is `op`. -/
abbrev hasOp (w : CmdWord) (op : Nat) : Prop := w.toNat / 2 ^ 45 = op

/-- The word raises `IllegalCommand` with the cause, and does nothing else: wherever it is the next input, the step answers `ERR` with
the cause, leaves the block as it was and moves on (R55, R90). -/
def raises (w : CmdWord) (c : Cause) : Prop :=
  decode w = .error c ∧
    ∀ s : State, s.inputs[s.pc]? = some (.command w) → step s = .next { s with rsp := some (.err c), pc := s.pc + 1 }

end Sys2Proof.Reference

open Sys2Proof Sys2Proof.Machine Sys2Proof.Reference Sys2Proof.Safety

/-! ### Encoding (30_encoding.md) -/

/-- R49 to R53: decoding the word of a well-formed command gives the command back, with every operand. -/
def Obligations.DecodeEncodeRoundTrip : Prop :=
  ∀ i : Instr, i.wellFormed = true → decode (encode i) = .ok i

/-- R48 to R55: a word that decodes is the one word of a well-formed command, so no bit of it is dropped. -/
def Obligations.DecodedWordIsTheEncoding : Prop :=
  ∀ (w : CmdWord) (i : Instr), decode w = .ok i → i.wellFormed = true ∧ encode i = w

/-- R53: a word is a command exactly when it matches the command's row, the rows are disjoint, and a word that matches none
raises `IllegalCommand`. -/
def Obligations.DecodeFollowsOpcodeMap : Prop :=
  ∀ w : CmdWord,
    (∀ row ∈ opcodeMap, rowMatches row w = true ↔ ∃ i, decode w = .ok i ∧ i.mnemonic = row.mnemonic) ∧
    opcodeMap.Pairwise (fun a b => ¬(a.mask &&& w = a.matchBits ∧ b.mask &&& w = b.matchBits)) ∧
    ((∀ row ∈ opcodeMap, rowMatches row w = false) →
      ∃ c, raises w c)

/-- R55: exactly the words of its table raise `IllegalCommand`, with its causes in its order, and do nothing else. -/
def Obligations.IllegalWordsAndTheirCauses : Prop :=
  ∀ w : CmdWord,
    (decode w = .error .reservedOpcode ↔ hasOp w 6 ∨ hasOp w 7) ∧
    (decode w = .error .reservedBits ↔
      ((hasOp w 0 ∨ hasOp w 3) ∧ w.toNat % 2 ^ 45 ≠ 0) ∨
      ((hasOp w 1 ∨ hasOp w 2) ∧ w.toNat / 2 ^ 42 % 2 ^ 3 ≠ 0) ∨
      (hasOp w 4 ∧ w.toNat / 2 ^ 2 % 2 ^ 43 ≠ 0) ∨
      (hasOp w 5 ∧ w.toNat / 2 ^ 10 % 2 ^ 35 ≠ 0)) ∧
    (decode w = .error .romLevel ↔
      hasOp w 5 ∧ w.toNat / 2 ^ 10 % 2 ^ 35 = 0 ∧ w.toNat / 2 ^ 7 % 2 ^ 3 = 7) ∧
    (∀ c, decode w = .error c → raises w c)

/-- R49: the word of format P is the sum its formula gives, the first argument in the highest bits. -/
def Obligations.PixelWordLayout : Prop :=
  ∀ p : Pixel,
    let fields := p.scanLine.toNat * 2 ^ 33 + p.fineY.toNat * 2 ^ 30 + p.dot.toNat * 2 ^ 21 + p.fineX.toNat * 2 ^ 18 +
      p.bgIndex.toNat * 2 ^ 16 + p.bgColor.toNat * 2 ^ 10 + p.spIndex.toNat * 2 ^ 8 + p.spColor.toNat * 2 ^ 2 +
      p.decision.toNat * 2 + p.showLeft.toNat
    (encode (.shadeStd p)).toNat = 1 * 2 ^ 45 + fields ∧ (encode (.shadeSpc p)).toNat = 2 * 2 ^ 45 + fields

/-- Words written out in the spec (R61, R64, R81 to R84, 95_test_vectors.md) decode to the commands they stand for. -/
def Obligations.WrittenWordsDecode : Prop :=
  decode 0x000000000000 = .ok .nop ∧
  decode 0x200000003FC2 = .ok (.shadeStd ⟨0, 0, 0, 0, 0, 0x0F, 3, 0x30, true, false⟩) ∧
  decode 0x40140505B001 = .ok (.shadeSpc ⟨10, 0, 40, 1, 1, 0x2C, 0, 0x00, false, true⟩) ∧
  decode 0x600000000000 = .ok .clrst ∧
  decode 0x800000000002 = .ok (.cfg true false) ∧
  decode 0xA00000000050 = .ok (.lut 0 0x50)

/-- R58: a command is written as its mnemonic and its operands in field order; such a line stands for that command alone, and
a line stands for a command whose operands are in the ranges of their fields or for none. That a `LUT` of level 7 has no line is
the model's reading, notes/assumptions/9.md: R52 gives the legal range as 0 to 6, while an example of R84 writes `LUT 7, 0`. -/
def Obligations.LinesStandForCommands : Prop :=
  (∀ i : Instr, i.wellFormed = true → Assembler.line i.mnemonic (Assembler.operands i) = some [i]) ∧
  (∀ (mnemonic : String) (operands : List Nat) (i : Instr), Assembler.command mnemonic operands = some i →
    i.wellFormed = true ∧ i.mnemonic = mnemonic ∧ Assembler.operands i = operands)

/-- R59: the pseudo-commands and their expansions, for every level and colour in range. -/
def Obligations.PseudoCommandsExpand : Prop :=
  Assembler.line "CFG.DEFAULT" [] = Assembler.line "CFG" [0, 1] ∧
  Assembler.line "INIT" [] = some [.clrst, .cfg false true] ∧
  ∀ level color : Nat, level ≤ 6 → color ≤ 63 →
    Assembler.line "LUT.B" [level, color] = Assembler.line "LUT" [level, color] ∧
    Assembler.line "LUT.S" [level, color] = Assembler.line "LUT" [level, color + 64] ∧
    Assembler.line "LUT" [level, color + 64] = some [.lut (BitVec.ofNat 3 level) (BitVec.ofNat 7 (color + 64))]

/-! ### The step, the exception, reset (10_state.md, 60_exceptions.md, 70_reset_and_hazards.md) -/

/-- R5, R18: where the next input is a word that decodes to a well-formed command, the step is that command's meaning, after
which the place in the input list moves on by one. -/
def Obligations.StepRunsDecodedCommand : Prop :=
  ∀ (s : State) (w : CmdWord) (i : Instr),
    s.inputs[s.pc]? = some (.command w) → decode w = .ok i → i.wellFormed = true →
    step s = match exec i s with
      | .next t => .next { t with pc := t.pc + 1 }
      | .fault f => .fault f
      | .refused r => .refused r

/-- R90: on an illegal word the state of the block stays as it is, the response is `ERR` with the cause, and the block goes on
with the next input. That this is a next state and no fault of the model is notes/assumptions/1.md. -/
def Obligations.IllegalWordChangesNothing : Prop :=
  ∀ (s : State) (w : CmdWord) (c : Cause),
    s.inputs[s.pc]? = some (.command w) → decode w = .error c →
    ∃ t, step s = .next t ∧ t.shader = s.shader ∧ t.cfg = s.cfg ∧ t.rsp = some (.err c) ∧
      t.inputs = s.inputs ∧ t.pc = s.pc + 1 ∧
      ∀ (level : BitVec 3) (index : RomIndex),
        responseOf (exec (.lut level index) t) = responseOf (exec (.lut level index) s)

/-- R91: the command after an illegal one runs as it would have from the unchanged state. -/
def Obligations.CommandAfterIllegalRunsNormally : Prop :=
  ∀ (s : State) (w v : CmdWord) (c : Cause) (i : Instr),
    s.inputs[s.pc]? = some (.command w) → decode w = .error c →
    s.inputs[s.pc + 1]? = some (.command v) → decode v = .ok i →
    ∃ t u, exec i s = .next t ∧ Sys2Proof.core.run 2 s = .next u ∧
      u.shader = t.shader ∧ u.cfg = t.cfg ∧ u.rsp = t.rsp ∧ u.inputs = s.inputs ∧ u.pc = s.pc + 2

/-- R99, R101: with no further input the block holds `S` and `CFG`. That the model then steps, and to the same state, is its choice,
notes/assumptions/2.md; that the response presented stays too is another, notes/assumptions/4.md. -/
def Obligations.NoInputHoldsEverything : Prop :=
  ∀ s : State, s.inputs.length ≤ s.pc → step s = .next s

/-- R100: `RESET` puts the registers, the options and `rsp_valid` at their reset values from every state, and abandons a
command in progress without a response. That resets stand in the input list is notes/assumptions/2.md. -/
def Obligations.ResetEventFromEveryState : Prop :=
  ∀ (s : State) (inProgress : Option CmdWord), s.inputs[s.pc]? = some (.reset inProgress) →
    step s = .next { shader := ⟨0, 0, 0, 0⟩, cfg := ⟨false, true⟩, rsp := none, inputs := s.inputs, pc := s.pc + 1 }

/-- R24: the state after reset, the ROM's listing among it. -/
def Obligations.StateAfterReset : Prop :=
  State.reset.shader = ⟨0, 0, 0, 0⟩ ∧ State.reset.cfg = ⟨false, true⟩ ∧ State.reset.rspValid = false ∧
  ∀ (level : Level) (index : RomIndex), romRead level index = romImage level index

/-! ### Control commands (42_control_commands.md) and the ROM (20_memory.md) -/

/-- R81: `NOP` responds `DONE` and changes nothing else; its word is 0, and with any of bits 44:0 set it is illegal. -/
def Obligations.NopDoesNothing : Prop :=
  (∀ s : State, exec .nop s = .next { s with rsp := some .done }) ∧
  decode 0 = .ok .nop ∧
  ∀ w : CmdWord, hasOp w 0 → w.toNat % 2 ^ 45 ≠ 0 → raises w .reservedBits

/-- R82: `CLRST` sets the four `S` registers to 0, keeps `CFG` and responds `DONE`; with any of bits 44:0 set its word is
illegal. -/
def Obligations.ClrstZeroesTheRegisters : Prop :=
  (∀ s : State, exec .clrst s = .next { s with shader := ⟨0, 0, 0, 0⟩, rsp := some .done }) ∧
  decode 0x600000000000 = .ok .clrst ∧
  ∀ w : CmdWord, hasOp w 3 → w.toNat % 2 ^ 45 ≠ 0 → raises w .reservedBits

/-- R83: `CFG` writes both option bits, keeps `S`, responds `DONE`, the next `SHADE.SPC` uses the new values,
and no other command changes them; with any of
bits 44:2 set its word is illegal. -/
def Obligations.CfgWritesBothOptions : Prop :=
  (∀ (d t : Bool) (s : State), exec (.cfg d t) s = .next { s with cfg := ⟨d, t⟩, rsp := some .done }) ∧
  (∀ (d t : Bool) (s s' : State) (p : Pixel), exec (.cfg d t) s = .next s' →
    exec (.shadeSpc p) s' = exec (.shadeSpc p) { s with cfg := ⟨d, t⟩ }) ∧
  (∀ (i : Instr) (s s' : State), exec i s = .next s' → (∀ d t, i ≠ .cfg d t) → s'.cfg = s.cfg) ∧
  (∀ d t : Bool, decode (BitVec.ofNat 48 (0x800000000000 + 2 * d.toNat + t.toNat)) = .ok (.cfg d t)) ∧
  ∀ w : CmdWord, hasOp w 4 → w.toNat / 2 ^ 2 % 2 ^ 43 ≠ 0 → raises w .reservedBits

/-- R84: `LUT` responds with the ROM's entry as R33 lists it and changes nothing else; level 7 raises cause 3, a
must-be-zero bit cause 2. -/
def Obligations.LutReadsTheListing : Prop :=
  (∀ (level : Level) (index : RomIndex) (s : State),
    exec (.lut (BitVec.ofNat 3 level.val) index) s = .next { s with rsp := some (.data (romImage level index)) }) ∧
  (∀ (index : RomIndex) (s : State), exec (.lut 7 index) s = .next { s with rsp := some (.err .romLevel) }) ∧
  (∀ (level : BitVec 3) (index : RomIndex),
    decode (BitVec.ofNat 48 (0xA00000000000 + level.toNat * 128 + index.toNat)) =
      if level = 7 then .error .romLevel else .ok (.lut level index)) ∧
  ∀ w : CmdWord, hasOp w 5 → w.toNat / 2 ^ 10 % 2 ^ 35 ≠ 0 → raises w .reservedBits

/-- R32: the ROM in closed form, as `LUT` reads it: the bright and the shadow entry of every colour at every level; 0x3F stands
only at indices 0x3F and 0x7F of levels 3 to 6. -/
def Obligations.LutClosedForm : Prop :=
  ∀ (level : Level) (i : Color) (s : State),
    let read (index : RomIndex) := responseOf (exec (.lut (BitVec.ofNat 3 level.val) index) s)
    read (i.setWidth 7) = some (.data (BitVec.ofNat 6 (brightEntry level.val i.toNat))) ∧
    read (64 + i.setWidth 7) = some (.data (BitVec.ofNat 6 (shadowEntry level.val i.toNat))) ∧
    (read (i.setWidth 7) = some (.data 0x3F) ↔ i = 0x3F ∧ 3 ≤ level.val) ∧
    (read (64 + i.setWidth 7) = some (.data 0x3F) ↔ i = 0x3F ∧ 3 ≤ level.val)

/-- R34: the table is a function of level and index alone, level 3 is the identity in both halves, and the two entries the
spec names have their values. -/
def Obligations.RomGuarantees : Prop :=
  ∀ s t : State,
    (∀ (level : BitVec 3) (index : RomIndex),
      responseOf (exec (.lut level index) s) = responseOf (exec (.lut level index) t)) ∧
    (∀ i : Color, responseOf (exec (.lut 3 (i.setWidth 7)) s) = some (.data i) ∧
      responseOf (exec (.lut 3 (64 + i.setWidth 7)) s) = some (.data i)) ∧
    responseOf (exec (.lut 0 0x10) s) = some (.data 0x00) ∧
    responseOf (exec (.lut 0 0x50) s) = some (.data 0x2D)

/-- R26, R40: the pairs of level and index are the flat addresses 0x000 to 0x37F, each once; bits 9:0 of a `LUT` word are the flat
address (R52); from 0x380 on nothing is populated. -/
def Obligations.FlatAddresses : Prop :=
  (∀ (level : Level) (index : RomIndex),
    flatAddress level index ≤ 0x37F ∧ romAt (flatAddress level index) = some (romImage level index) ∧
    (encode (.lut (BitVec.ofNat 3 level.val) index)).toNat % 2 ^ 10 = flatAddress level index) ∧
  (∀ addr : Nat, addr ≤ 0x37F → ∃! at_ : Level × RomIndex, flatAddress at_.1 at_.2 = addr) ∧
  ∀ addr : Nat, 0x380 ≤ addr → romAt addr = none

/-- R35, R39: no input changes what a ROM read returns. -/
def Obligations.NoInputChangesTheRom : Prop :=
  ∀ (s t : State) (level : BitVec 3) (index : RomIndex), step s = .next t →
    responseOf (exec (.lut level index) t) = responseOf (exec (.lut level index) s)

/-! ### The standard shader (40_standard_shader.md) -/

/-- R61: `SHADE.STD` responds `decision ? spColor : bgColor` and changes nothing else; bits 44:42 make its word illegal. -/
def Obligations.StandardShaderMultiplexes : Prop :=
  (∀ (p : Pixel) (s : State),
    exec (.shadeStd p) s = .next { s with rsp := some (.data (if p.decision = true then p.spColor else p.bgColor)) }) ∧
  decode 0x200000003FC2 = .ok (.shadeStd ⟨0, 0, 0, 0, 0, 0x0F, 3, 0x30, true, false⟩) ∧
  ∀ w : CmdWord, hasOp w 1 → (w.toNat / 2 ^ 42 % 2 ^ 3 = 0 ↔ ∃ p, decode w = .ok (.shadeStd p)) ∧
    (w.toNat / 2 ^ 42 % 2 ^ 3 ≠ 0 → raises w .reservedBits)

/-- R62: the response of `SHADE.STD` is the same from every state, and a later `SHADE.SPC` runs as if it had not been there. -/
def Obligations.StandardShaderIsInvisible : Prop :=
  ∀ (p q : Pixel) (s s' : State),
    responseOf (exec (.shadeStd p) s) = responseOf (exec (.shadeStd p) s') ∧
    ∃ t, exec (.shadeStd p) s = .next t ∧ t.shader = s.shader ∧ t.cfg = s.cfg ∧
      exec (.shadeSpc q) t = exec (.shadeSpc q) s

/-! ### The spectral shader, step by step (41_spectral_shader.md) -/

/-- R64: the call-local values at the start, the six steps in their order, the response, and the rule's example. -/
def Obligations.SpectralRunsItsStepsInOrder : Prop :=
  (∀ (p : Pixel) (s : State),
    let start : Pass := ⟨s.shader, ⟨false, s.cfg.fxDither, 3, p.bgColor.setWidth 7⟩⟩
    let last := levelStep p s.cfg (decayStep p (phaseStep p (spriteStep p (edgeStep p start))))
    exec (.shadeSpc p) s = .next { s with shader := last.regs, rsp := some (.data (outputColor p last)) }) ∧
  (∀ w : CmdWord, hasOp w 2 → w.toNat / 2 ^ 42 % 2 ^ 3 ≠ 0 → raises w .reservedBits) ∧
  decode 0x400000010401 = .ok (.shadeSpc ⟨0, 0, 0, 0, 1, 0x01, 0, 0x00, false, true⟩) ∧
  exec (.shadeSpc ⟨0, 0, 0, 0, 1, 0x01, 0, 0x00, false, true⟩) State.reset =
    .next { State.reset with shader := ⟨0, 0, 0x01, 6⟩, rsp := some (.data 0x21) }

/-- R65: step 1 on every pass. -/
def Obligations.EdgeResetStep : Prop :=
  ∀ (p : Pixel) (a : Pass),
    edgeStep p a =
      if p.dot.toNat < 2 ∨ (p.showLeft = false ∧ p.dot.toNat < 9) then
        { regs := { a.regs with phase := if p.bgIndex = 0 then 14 else 7, bgShadow := 0, lastColor := p.bgColor }
          loc := { a.loc with mute := true } }
      else a

/-- R66: step 2 on every pass; the sum does not wrap, also not from the unreachable 10 to 15; the edge reset does not touch
the counter. -/
def Obligations.SpriteShadowStep : Prop :=
  ∀ (p : Pixel) (a : Pass),
    (p.decision = false → spriteStep p a = a) ∧
    (p.decision = true →
      (spriteStep p a).regs.spShadow.toNat = min 9 (a.regs.spShadow.toNat + 5) ∧
      spriteStep p a = { a with regs := { a.regs with spShadow := (spriteStep p a).regs.spShadow } }) ∧
    (edgeStep p a).regs.spShadow = a.regs.spShadow

/-- R67: step 3 on every pass, with the dark test as the rule's ROM read, in the listing of R33. -/
def Obligations.PhaseTrackingStep : Prop :=
  ∀ (p : Pixel) (a : Pass),
    (phaseStep p a).loc = a.loc ∧
    (phaseStep p a).regs.lastColor = p.bgColor ∧
    (phaseStep p a).regs.spShadow = a.regs.spShadow ∧
    (p.bgColor = a.regs.lastColor →
      (phaseStep p a).regs.phase.toNat = (if p.bgIndex = 0 then 0 else a.regs.phase.toNat - 1) ∧
      (phaseStep p a).regs.bgShadow = a.regs.bgShadow) ∧
    (p.bgColor ≠ a.regs.lastColor → a.loc.mute = true →
      (phaseStep p a).regs.phase = a.regs.phase ∧ (phaseStep p a).regs.bgShadow = a.regs.bgShadow) ∧
    (p.bgColor ≠ a.regs.lastColor → a.loc.mute = false →
      (phaseStep p a).regs.phase = 14 ∧
      (phaseStep p a).regs.bgShadow =
        if p.bgIndex = 0 ∧ romImage 1 (64 + p.bgColor.setWidth 7) ≠ 0x2D then 3 else a.regs.bgShadow)

/-- R68: step 4 on every pass: with a counter nonzero, up to two off `spShadow`, up to one off `bgShadow`, and dither on for a
dark colour; else nothing. -/
def Obligations.ShadowDecayStep : Prop :=
  ∀ (p : Pixel) (a : Pass),
    (a.regs.spShadow = 0 → a.regs.bgShadow = 0 → decayStep p a = a) ∧
    ((a.regs.spShadow ≠ 0 ∨ a.regs.bgShadow ≠ 0) →
      (decayStep p a).regs.spShadow.toNat = a.regs.spShadow.toNat - 2 ∧
      (decayStep p a).regs.bgShadow.toNat = a.regs.bgShadow.toNat - 1 ∧
      (decayStep p a).regs.lastColor = a.regs.lastColor ∧ (decayStep p a).regs.phase = a.regs.phase ∧
      (decayStep p a).loc =
        { a.loc with dither := a.loc.dither || decide (romImage 1 (64 + p.bgColor.setWidth 7) = 0x2D) })

/-- R69: step 5 on every pass: which pixels it acts on, the curve's table, the bias and the routing of colours up to 0x10
while a counter is active, the dither override, and that no register is written. -/
def Obligations.LevelSelectionStep : Prop :=
  ∀ (p : Pixel) (c : CfgReg) (a : Pass),
    let active := a.regs.spShadow ≠ 0 ∨ a.regs.bgShadow ≠ 0
    let base := if p.bgColor.toNat % 16 = 10 then 3 else curveTable a.regs.phase.toNat
    ((p.decision = true ∨ (c.fxTransparency = true ∧ p.spIndex ≠ 0)) → levelStep p c a = a) ∧
    (¬(p.decision = true ∨ (c.fxTransparency = true ∧ p.spIndex ≠ 0)) →
      (levelStep p c a).regs = a.regs ∧
      (levelStep p c a).loc.mute = a.loc.mute ∧ (levelStep p c a).loc.dither = a.loc.dither ∧
      (levelStep p c a).loc.color =
        (if active ∧ a.loc.color.toNat ≤ 0x10 then a.loc.color + 64 else a.loc.color) ∧
      (levelStep p c a).loc.pshift.val =
        if a.loc.dither = true ∧ (p.scanLine.toNat + p.dot.toNat + p.fineX.toNat + p.fineY.toNat) % 2 = 1 then 3
        else base - if active then 1 else 0)

/-- R70: step 6 reads the ROM, in the listing of R33, at the level of step 5 and the sprite's or the candidate colour. -/
def Obligations.OutputLookupStep : Prop :=
  ∀ (p : Pixel) (a : Pass),
    outputColor p a = romImage a.loc.pshift (if p.decision = true then p.spColor.setWidth 7 else a.loc.color) ∧
    (p.decision = true → a.loc.pshift = 3 → outputColor p a = p.spColor)

/-! ### The spectral shader as a whole (41_spectral_shader.md) -/

/-- R65 to R70 against R32, R72, R73, R75, R76, R77 and R80: `SHADE.SPC` completes from every state, and its six steps over
the ROM compute exactly the closed form, in which no ROM, no `mute` flag and no intermediate register stands. -/
def Obligations.SpectralEqualsClosedForm : Prop :=
  ∀ (p : Pixel) (s : State),
    exec (.shadeSpc p) s =
      .next { s with shader := shaderNext p s.shader, rsp := some (.data (spectralColor p s.cfg s.shader)) }

/-- R76: with `decision` = 1 the response is `spColor` whatever the state and the other operands; the registers still advance. -/
def Obligations.SpritePixelsAreNeverShaded : Prop :=
  ∀ (p : Pixel) (s : State), p.decision = true →
    ∃ t, exec (.shadeSpc p) s = .next t ∧ t.rsp = some (.data p.spColor) ∧
      t.shader = (decayStep p (phaseStep p (spriteStep p (edgeStep p (passStart p s.cfg s.shader))))).regs ∧
      t.shader.spShadow.toNat = min 9 (s.shader.spShadow.toNat + 5) - 2

/-- R73: the dark test holds exactly for colours below 0x20, that is with bit 5 clear, as `LUT` reads its entry. -/
def Obligations.DarkTestIsAComparison : Prop :=
  ∀ (c : Color) (s : State),
    (exec (.lut 1 (64 + c.setWidth 7)) s = .next { s with rsp := some (.data 0x2D) } ↔ c.toNat < 0x20) ∧
    (c.toNat < 0x20 ↔ c.getLsbD 5 = false)

/-- R74: whenever step 3 takes the branch that reads `mute`, the flag is false; with the flag held false throughout, the same
registers and the same output result. -/
def Obligations.MuteFlagIsUnobservable : Prop :=
  ∀ (p : Pixel) (c : CfgReg) (r : ShaderState),
    let before := spriteStep p (edgeStep p (passStart p c r))
    let unmuted := { before with loc := { before.loc with mute := false } }
    (p.bgColor ≠ before.regs.lastColor → before.loc.mute = false) ∧
    (levelStep p c (decayStep p (phaseStep p unmuted))).regs = (spectralPass p c r).regs ∧
    outputColor p (levelStep p c (decayStep p (phaseStep p unmuted))) = outputColor p (spectralPass p c r)

/-- R75: the level before the bias is 3 to 5, the output level is 2 to 5, and the routing to the shadow half changes the
response only for colours up to 0x0F at level 2, where it gives `BLACK`. -/
def Obligations.OutputLevelIsTwoToFive : Prop :=
  ∀ (p : Pixel) (c : CfgReg) (r : ShaderState),
    let a := spectralPass p c r
    (3 ≤ curveLevel p a.regs ∧ curveLevel p a.regs ≤ 5) ∧
    (2 ≤ a.loc.pshift.val ∧ a.loc.pshift.val ≤ 5) ∧
    (p.decision = false → romRead a.loc.pshift a.loc.color ≠ romRead a.loc.pshift (p.bgColor.setWidth 7) →
      p.bgColor.toNat ≤ 0x0F ∧ a.loc.pshift.val = 2 ∧ outputColor p a = 0x2D) ∧
    ∀ (level : Level) (i : Color), 2 ≤ level.val → level.val ≤ 5 →
      (romRead level (i.setWidth 7) ≠ romRead level (64 + i.setWidth 7) ↔ level.val = 2 ∧ i.toNat ≤ 0x0F)

/-- R77, X9: the dither parity is the exclusive or of four bits, and apart from it `scanLine`, `fineY` and `fineX` have no effect;
`dot` has one only through it and, in step 1, through `min(dot, 9)`. -/
def Obligations.CoordinatesMatterOnlyByParity : Prop :=
  ∀ p : Pixel,
    (((p.scanLine.toNat + p.dot.toNat + p.fineX.toNat + p.fineY.toNat) % 2 = 1) ↔ parityBit p = true) ∧
    ∀ (line dot : BitVec 9) (y x : BitVec 3) (s : State),
      let q := { p with scanLine := line, fineY := y, dot := dot, fineX := x }
      min dot.toNat 9 = min p.dot.toNat 9 → parityBit q = parityBit p →
      exec (.shadeSpc q) s = exec (.shadeSpc p) s

/-- R80, X12: a command that takes the edge reset ends with `phase` 6 or 0, `bgShadow` 0 and `lastColor` = `bgColor`, whatever
the state before; `spShadow` is carried on, not reset (R108, C7). -/
def Obligations.EdgeResetEndValues : Prop :=
  ∀ (p : Pixel) (s : State), (p.dot.toNat < 2 ∨ (p.showLeft = false ∧ p.dot.toNat < 9)) →
    ∃ t, exec (.shadeSpc p) s = .next t ∧
      t.shader.phase.toNat = (if p.bgIndex = 0 then 0 else 6) ∧ t.shader.bgShadow = 0 ∧ t.shader.lastColor = p.bgColor ∧
      (p.decision = false → t.shader.spShadow.toNat = s.shader.spShadow.toNat - 2)

/-- R66, R68, R79, R80: over a whole command a sprite pixel raises `spShadow` by 5 up to 9 and takes 2 off, any other takes up to 2
off, and `bgShadow` loses at most 1 where it is not set; 7 is the fixed point of sprite pixels and 0 of the others. -/
def Obligations.ShadowCountersOverACommand : Prop :=
  ∀ (p : Pixel) (s : State),
    ∃ t, exec (.shadeSpc p) s = .next t ∧
      t.shader.spShadow.toNat =
        (if p.decision = true then min 9 (s.shader.spShadow.toNat + 5) else s.shader.spShadow.toNat) - 2 ∧
      (p.decision = true → s.shader.spShadow = 7 → t.shader.spShadow = 7) ∧
      (p.decision = false → s.shader.spShadow = 0 → t.shader.spShadow = 0) ∧
      (p.bgIndex ≠ 0 → 2 ≤ p.dot.toNat → p.showLeft = true →
        t.shader.bgShadow.toNat = s.shader.bgShadow.toNat - 1)

/-- R72, X7: the registers after the command depend on the registers before it and on `dot`, `showLeft`, `bgIndex`, `bgColor` and
`decision` only; neither the other operands nor `CFG` reach them. -/
def Obligations.OtherOperandsNeverReachTheRegisters : Prop :=
  ∀ (p q : Pixel) (s s' t t' : State),
    s.shader = s'.shader → p.dot = q.dot → p.showLeft = q.showLeft → p.bgIndex = q.bgIndex →
    p.bgColor = q.bgColor → p.decision = q.decision →
    exec (.shadeSpc p) s = .next t → exec (.shadeSpc q) s' = .next t' → t.shader = t'.shader

/-- R63: against the baseline `SHADE.STD`, a sprite pixel gives the same colour and a background pixel keeps its column or becomes
`BLACK`. -/
def Obligations.SpectralKeepsTheColumn : Prop :=
  ∀ (p : Pixel) (s : State),
    ∃ v : Color, responseOf (exec (.shadeSpc p) s) = some (.data v) ∧
      (p.decision = true → responseOf (exec (.shadeStd p) s) = some (.data v)) ∧
      (p.decision = false → v.toNat % 16 = p.bgColor.toNat % 16 ∨ v = 0x2D)

/-- R107: a `CFG` acts on the very next `SHADE.SPC`'s response and never on the registers. -/
def Obligations.OptionsChangeOnlyResponses : Prop :=
  ∀ (d e : Bool) (p : Pixel) (s t : State), exec (.cfg d e) s = .next t →
    ∃ u v, exec (.shadeSpc p) t = .next u ∧ exec (.shadeSpc p) s = .next v ∧
      u.shader = v.shader ∧ u.cfg = ⟨d, e⟩ ∧ u.rsp = some (.data (spectralColor p ⟨d, e⟩ s.shader))

/-- R103: the first pixel after `CLRST`, outside the edge columns, compares its colour with 0x00 like any other value: colour 0x00 is
a continuation, any other a change. -/
def Obligations.FirstPixelAfterClear : Prop :=
  ∀ (p : Pixel) (s t : State), exec .clrst s = .next t → 2 ≤ p.dot.toNat → (p.showLeft = true ∨ 9 ≤ p.dot.toNat) →
    ∃ u, exec (.shadeSpc p) t = .next u ∧
      u.shader.phase = (if p.bgColor = 0 then 0 else 14) ∧
      u.shader.bgShadow = (if p.bgIndex = 0 ∧ 0x20 ≤ p.bgColor.toNat then 2 else 0)

/-! ### The whole machine -/

/-- R23: every step keeps `spShadow <= 9`, `bgShadow <= 3`, `phase <= 14`. -/
def Obligations.StepKeepsDocumentedRanges : Prop :=
  ∀ s t : State, InRange s → step s = .next t → InRange t

/-- R23, X4: every step keeps the tighter ranges seen between commands: `spShadow <= 7`, `bgShadow <= 2`, `phase <= 14`. -/
def Obligations.StepKeepsBoundaryRanges : Prop :=
  ∀ s t : State, AtBoundary s → step s = .next t → AtBoundary t

/-- R23, R24: the reset state meets both. -/
def Obligations.RangesHoldAtReset : Prop :=
  InRange State.reset ∧ AtBoundary State.reset

/-- R23, R80: one `SHADE.SPC` takes every state of the documented ranges into the tighter ones. -/
def Obligations.SpectralEntersBoundaryRanges : Prop :=
  ∀ (p : Pixel) (s t : State), InRange s → exec (.shadeSpc p) s = .next t → AtBoundary t

/-- R23, X4: within those bounds every value occurs: some inputs lead from reset to it. -/
def Obligations.EveryBoundaryValueOccurs : Prop :=
  let reaches (good : ShaderState → Prop) :=
    ∃ (inputs : List HostInput) (k : Nat) (t : State),
      Sys2Proof.core.run k { State.reset with inputs := inputs } = .next t ∧ good t.shader
  (∀ n ≤ 7, reaches fun r => r.spShadow.toNat = n) ∧
  (∀ n ≤ 2, reaches fun r => r.bgShadow.toNat = n) ∧
  (∀ n ≤ 14, reaches fun r => r.phase.toNat = n) ∧
  (∀ c : Color, reaches fun r => r.lastColor = c)

/-- R16, X10: the frame of every command. `exec` leaves the input list and the place in it alone; only `SHADE.SPC` and `CLRST` change a
register of `S`; only `CFG` changes `CFG`; and no command changes what the ROM holds. -/
def Obligations.CommandFrames : Prop :=
  ∀ (i : Instr) (s t : State), exec i s = .next t →
    t.inputs = s.inputs ∧ t.pc = s.pc ∧
    (t.shader ≠ s.shader → (∃ p, i = .shadeSpc p) ∨ i = .clrst) ∧
    (t.cfg ≠ s.cfg → ∃ d e, i = .cfg d e) ∧
    ∀ (level : BitVec 3) (index : RomIndex),
      responseOf (exec (.lut level index) t) = responseOf (exec (.lut level index) s)

/-- R11, R16: a step changes a register of `S` only for `SHADE.SPC`, `CLRST` or `RESET`; nothing decays by itself. -/
def Obligations.OnlyTheseWriteTheRegisters : Prop :=
  ∀ s t : State, step s = .next t → t.shader ≠ s.shader →
    (∃ x, s.inputs[s.pc]? = some (.reset x)) ∨
    ∃ w, s.inputs[s.pc]? = some (.command w) ∧ ((∃ p, decode w = .ok (.shadeSpc p)) ∨ decode w = .ok .clrst)

/-- R11, R17: a step changes `CFG` only for `CFG` or `RESET`. -/
def Obligations.OnlyTheseWriteTheOptions : Prop :=
  ∀ s t : State, step s = .next t → t.cfg ≠ s.cfg →
    (∃ x, s.inputs[s.pc]? = some (.reset x)) ∨
    ∃ w d e, s.inputs[s.pc]? = some (.command w) ∧ decode w = .ok (.cfg d e)

/-- R9, R85: every legal command completes from every state, and its response is never `ERR`. -/
def Obligations.LegalCommandsComplete : Prop :=
  ∀ (i : Instr) (s : State), i.wellFormed = true → ∃ t, exec i s = .next t ∧ answeredErr t = false

/-- R5, R18, R78, R90: a step on a command word, legal or not, answers a next state with a response, and the place moves on by one.
That a step without input answers a next state, and that `RESET` too moves the place on, are the model's choices,
notes/assumptions/2.md. -/
def Obligations.EveryStepCompletes : Prop :=
  ∀ s : State, ∃ t, step s = .next t ∧ t.inputs = s.inputs ∧
    (s.pc < s.inputs.length → t.pc = s.pc + 1) ∧
    ∀ w, s.inputs[s.pc]? = some (.command w) → t.rspValid = true

/-- R57: what the response ports carry after a command: `DONE` 0 and data 0, `DATA` 1 and the colour, `ERR` 2 and the cause code; status 3
is never presented. -/
def Obligations.ResponsePorts : Prop :=
  ∀ (s t : State) (w : CmdWord), s.inputs[s.pc]? = some (.command w) → step s = .next t →
    t.rspValid = true ∧ t.rspStatus ≠ 3 ∧
    ((decode w = .ok .nop ∨ decode w = .ok .clrst ∨ ∃ d e, decode w = .ok (.cfg d e)) →
      t.rspStatus = 0 ∧ t.rspData = 0) ∧
    (∀ p, decode w = .ok (.shadeStd p) → t.rspStatus = 1 ∧ t.rspData = if p.decision = true then p.spColor else p.bgColor) ∧
    (∀ p, decode w = .ok (.shadeSpc p) → t.rspStatus = 1 ∧ t.rspData = spectralColor p s.cfg s.shader) ∧
    (∀ (level : Level) (index : RomIndex), decode w = .ok (.lut (BitVec.ofNat 3 level.val) index) →
      t.rspStatus = 1 ∧ t.rspData = romImage level index) ∧
    (decode w = .error .reservedOpcode → t.rspStatus = 2 ∧ t.rspData = 1) ∧
    (decode w = .error .reservedBits → t.rspStatus = 2 ∧ t.rspData = 2) ∧
    (decode w = .error .romLevel → t.rspStatus = 2 ∧ t.rspData = 3)

/-- R25, R47, R96: copies of the block share nothing they can write, so the steps of two copies commute and each ends where its own
`step` takes it. That copies are a list of states of which `stepInstance` moves one at a time is the model's choice,
notes/assumptions/8.md. -/
def Obligations.InstancesDoNotInteract : Prop :=
  ∀ (j k : Nat) (copies : List State), j ≠ k →
    ∃ after_j after_k both,
      stepInstance j copies = .next after_j ∧ stepInstance k copies = .next after_k ∧
      after_j[k]? = copies[k]? ∧ after_k[j]? = copies[j]? ∧
      stepInstance k after_j = .next both ∧ stepInstance j after_k = .next both ∧
      (∀ s, copies[j]? = some s → ∃ t, step s = .next t ∧ both[j]? = some t)

/-- R87, R90, D18: a run of `k` steps has gone wrong exactly when an input it takes is an illegal word, whatever came after; its
cause is that of the first such word, to which `ERR` with the cause was the response; and in a run that has not gone wrong no
command was answered by `ERR`. That this is a mark on the run and does not stop the machine is notes/assumptions/1.md. -/
def Obligations.RunGoesWrongOnIllegalWords : Prop :=
  ∀ (k : Nat) (s : State),
    (runWentWrong k s = true ↔
      ∃ n w c, n < k ∧ s.inputs[s.pc + n]? = some (.command w) ∧ decode w = .error c) ∧
    (∀ c, runCause k s = some c →
      ∃ n w t, n < k ∧ runWentWrong n s = false ∧ s.inputs[s.pc + n]? = some (.command w) ∧ decode w = .error c ∧
        Sys2Proof.core.run (n + 1) s = .next t ∧ t.rsp = some (.err c)) ∧
    (runWentWrong k s = false → ∀ n w, n < k → s.inputs[s.pc + n]? = some (.command w) →
      ∃ t, Sys2Proof.core.run (n + 1) s = .next t ∧ answeredErr t = false)
end

