-- ==== Sys2Proof/Laws/Decode.lean ====
section
/-! SUPPORT. Slices of placed fields, and the decoder's fields as quotients and remainders of the word. -/

namespace Sys2Proof

/-- Bit `i` of a field placed at `at_` is the field's bit `i - at_`. -/
theorem getLsbD_place {n : Nat} (v : BitVec n) (at_ i : Nat) (h : i < 48) :
    (place v at_).getLsbD i = (decide (at_ ≤ i) && v.getLsbD (i - at_)) := by
  simp only [place, BitVec.getLsbD_shiftLeft, BitVec.getLsbD_setWidth]
  by_cases h' : at_ ≤ i
  · have : i - at_ < 48 := by omega
    simp [h, h', this]
  · simp [h']

/-- A slice distributes over the fields of a word. -/
theorem slice_or (v w : CmdWord) (start len : Nat) :
    (v ||| w).extractLsb' start len = v.extractLsb' start len ||| w.extractLsb' start len := by
  apply BitVec.eq_of_getLsbD_eq
  intro i hi
  simp [hi]

/-- The slice where a field was placed is the field. -/
theorem slice_place_same {n : Nat} (v : BitVec n) (at_ : Nat) (h : at_ + n ≤ 48) :
    (place v at_).extractLsb' at_ n = v := by
  apply BitVec.eq_of_getLsbD_eq
  intro i hi
  rw [BitVec.getLsbD_extractLsb', getLsbD_place _ _ _ (by omega)]
  simp [hi]

/-- A slice apart from a field's place is 0. -/
theorem slice_place_apart {n : Nat} (v : BitVec n) (at_ start len : Nat) (fits : start + len ≤ 48)
    (h : at_ + n ≤ start ∨ start + len ≤ at_) : (place v at_).extractLsb' start len = 0#len := by
  apply BitVec.eq_of_getLsbD_eq
  intro i hi
  rw [BitVec.getLsbD_extractLsb', getLsbD_place _ _ _ (by omega)]
  rcases h with h | h
  · simp [BitVec.getLsbD_of_ge v (start + i - at_) (by omega)]
  · have : ¬at_ ≤ start + i := by omega
    simp [this]

/-- A slice of a word is a quotient modulo a power of two. -/
theorem slice_toNat (w : CmdWord) (start len : Nat) :
    (w.extractLsb' start len).toNat = w.toNat / 2 ^ start % 2 ^ len := by
  simp [BitVec.extractLsb'_toNat, Nat.shiftRight_eq_div_pow]

/-- The opcode is the top three bits. -/
theorem opField_toNat (w : CmdWord) : (opField w).toNat = w.toNat / 2 ^ 45 := by
  have := w.isLt
  rw [opField, slice_toNat, Nat.mod_eq_of_lt]; omega

/-- No field of format P reaches the opcode bits. -/
theorem opField_encodePixel (op : BitVec 3) (p : Pixel) : opField (encodePixel op p) = op := by
  simp only [opField, encodePixel, slice_or]
  rw [slice_place_same _ _ (by omega)]
  simp (disch := omega) only [slice_place_apart, BitVec.or_zero]

end Sys2Proof
end

