-- ==== Sys2Proof/Laws/Flags.lean ====
section
/-! SUPPORT. The conditions the steps of `SHADE.SPC` test, as the spec words them. -/

namespace Sys2Proof.Machine

/-- The edge columns (R65). -/
theorem onEdge_iff (p : Pixel) :
    onEdge p = true ↔ p.dot.toNat < 2 ∨ (p.showLeft = false ∧ p.dot.toNat < 9) := by
  simp only [onEdge, Bool.or_eq_true, Bool.and_eq_true, decide_eq_true_eq, Bool.not_eq_true']

/-- A counter is active when one of the two is nonzero (R68). -/
theorem shadowActive_iff (r : ShaderState) :
    shadowActive r = true ↔ r.spShadow ≠ 0 ∨ r.bgShadow ≠ 0 := by
  simp only [shadowActive, Bool.or_eq_true, bne_iff_ne]

/-- The background is shown unless the sprite wins or shows through (R69). -/
theorem backgroundShown_iff (c : CfgReg) (p : Pixel) :
    backgroundShown c p = true ↔ ¬(p.decision = true ∨ (c.fxTransparency = true ∧ p.spIndex ≠ 0)) := by
  simp only [backgroundShown, Bool.not_eq_true', ← Bool.not_eq_true, Bool.or_eq_true, Bool.and_eq_true, bne_iff_ne]

/-- The dither parity is on when the coordinate sum is odd (R69). -/
theorem oddParity_iff (p : Pixel) :
    oddParity p = true ↔ (p.scanLine.toNat + p.dot.toNat + p.fineX.toNat + p.fineY.toNat) % 2 = 1 := by
  simp only [oddParity, beq_iff_eq]

end Sys2Proof.Machine
end

