-- ==== Sys2Proof/Laws/Operands.lean ====
section
/-! SUPPORT. The operand arithmetic, said once on naturals. -/

namespace Sys2Proof.Machine

/-- The bump saturates at 9 and does not wrap (R66). -/
theorem bump_toNat : ∀ x : Count, (bump x).toNat = min 9 (x.toNat + 5) := by decide

/-- A guarded decrement is subtraction that stops at 0 (R67, R68). -/
theorem decr_toNat : ∀ x : Count, (decr x).toNat = x.toNat - 1 := by decide

/-- The curve lies in 3..5 for every four-bit phase (R69, R75). -/
theorem curve_range : ∀ x : Count, 3 ≤ curve x ∧ curve x ≤ 5 := by decide

/-- Clamping changes no level up to 6 (R75). -/
theorem clampLevel_val {n : Nat} (h : n ≤ 6) : (clampLevel n).val = n := by simp [clampLevel]; omega

/-- A level below 7 is named by its own three bits. -/
theorem levelOf_ofNat : ∀ l : Level, levelOf (BitVec.ofNat 3 l.val) = some l := by decide

/-- The three-bit levels below 7 are the ROM's, and 7 is none (R52). -/
theorem levelOf_eq_none : ∀ level : BitVec 3, levelOf level = none ↔ level = 7 := by decide

end Sys2Proof.Machine
end

