-- ==== Sys2Proof/Laws/PerInstr.lean ====
section
/-! SUPPORT. Families of statements about every command as syntax, one lemma per constructor. -/

namespace Sys2Proof.Laws.OpcodeOf

/-- The opcode field of a command's word is the number of its mnemonic's row in the map of R53. -/
def Statement (i : Instr) : Prop :=
  (opField (encode i)).toNat = opcodeMap.findIdx (fun row => row.mnemonic == i.mnemonic)

theorem nop : Statement .nop := by rfl

theorem shadeStd (p : Pixel) : Statement (.shadeStd p) := by
  rw [Statement, show encode (.shadeStd p) = encodePixel 1 p from rfl, opField_encodePixel]; rfl

theorem shadeSpc (p : Pixel) : Statement (.shadeSpc p) := by
  rw [Statement, show encode (.shadeSpc p) = encodePixel 2 p from rfl, opField_encodePixel]; rfl

theorem clrst : Statement .clrst := by rfl

theorem cfg (fxDither fxTransparency : Bool) : Statement (.cfg fxDither fxTransparency) := by
  cases fxDither <;> cases fxTransparency <;> rfl

theorem lut (level : BitVec 3) (index : RomIndex) : Statement (.lut level index) := by
  have : opField (encode (.lut level index)) = 5 := by
    simp only [opField, encode, slice_or]
    rw [slice_place_same _ _ (by omega)]
    simp (disch := omega) only [slice_place_apart, BitVec.or_zero]
  rw [Statement, this]; rfl

end Sys2Proof.Laws.OpcodeOf
end

