-- ==== Sys2Proof/Laws/Rom.lean ====
section
/-! SUPPORT. What the ROM holds, said once: the built table is the listing of R33, level 3 is the identity (R34), and the dark
test is a comparison (R73). -/

namespace Sys2Proof.Machine

set_option maxRecDepth 20000 in
/-- The table R28 to R31 build is the listing of R33, in all 896 entries. -/
theorem romRead_eq_romImage : ∀ (level : Level) (index : RomIndex), romRead level index = romImage level index := by
  decide

/-- Level 3 is the identity in the bright half (R34). -/
theorem romRead_neutral_bright : ∀ c : Color, romRead 3 (brightIndex c) = c := by decide

/-- Level 3 is the identity in the shadow half too (R34). -/
theorem romRead_neutral_shadow : ∀ c : Color, romRead 3 (brightIndex c + 64) = c := by decide

/-- The dark test holds exactly for colours below 0x20 (R73). -/
theorem isDark_eq : ∀ c : Color, isDark c = decide (c.toNat < 0x20) := by decide

end Sys2Proof.Machine
end

