-- ==== Sys2Proof/Laws/Safety.lean ====
section
/-! SUPPORT. What marks a run as gone wrong, said once: a proof over a run cites these and unfolds neither `raisedNow` nor
`runCause`. -/

namespace Sys2Proof.Safety

open Sys2Proof.Machine

/-- An `IllegalCommand` is raised exactly by an illegal word that is the next input (R55, R86). -/
theorem raisedNow_eq_some {s : State} {c : Cause} :
    raisedNow s = some c ↔ ∃ w, fetch s = some (.command w) ∧ decode w = .error c := by
  unfold raisedNow
  rcases fetch s with _ | ⟨w⟩ | ⟨x⟩
  · simp
  · cases h : decode w <;> simp [h]
  · simp

@[simp] theorem runCause_zero (s : State) : runCause 0 s = none := rfl

/-- The first cause of a run decides (R87). -/
theorem runCause_raised {k : Nat} {s : State} {c : Cause} (h : raisedNow s = some c) : runCause (k + 1) s = some c := by
  simp [runCause, h]

/-- Where the first input raises nothing, the cause is that of the rest of the run. -/
theorem runCause_step {k : Nat} {s t : State} (h : raisedNow s = none) (ht : step s = .next t) :
    runCause (k + 1) s = runCause k t := by
  simp [runCause, h, ht]

/-- A run whose first step answers a next state goes on from there. -/
theorem run_succ (M : Host.Core) {s t : M.State} (h : M.step s = .next t) (n : Nat) : M.run (n + 1) s = M.run n t := by
  simp only [Host.Core.run, h]

end Sys2Proof.Safety
end

