-- ==== Sys2Proof/Laws/State.lean ====
section
/-! SUPPORT. One lemma per field per update of the state, and what the operations on the input list answer. -/

namespace Sys2Proof.Machine

section Registers
variable (r : ShaderState) (v : Count) (c : Color)

@[simp] theorem setSpShadow_spShadow : (r.setSpShadow v).spShadow = v := rfl
@[simp] theorem setSpShadow_bgShadow : (r.setSpShadow v).bgShadow = r.bgShadow := rfl
@[simp] theorem setSpShadow_lastColor : (r.setSpShadow v).lastColor = r.lastColor := rfl
@[simp] theorem setSpShadow_phase : (r.setSpShadow v).phase = r.phase := rfl
@[simp] theorem setBgShadow_spShadow : (r.setBgShadow v).spShadow = r.spShadow := rfl
@[simp] theorem setBgShadow_bgShadow : (r.setBgShadow v).bgShadow = v := rfl
@[simp] theorem setBgShadow_lastColor : (r.setBgShadow v).lastColor = r.lastColor := rfl
@[simp] theorem setBgShadow_phase : (r.setBgShadow v).phase = r.phase := rfl
@[simp] theorem setLastColor_spShadow : (r.setLastColor c).spShadow = r.spShadow := rfl
@[simp] theorem setLastColor_bgShadow : (r.setLastColor c).bgShadow = r.bgShadow := rfl
@[simp] theorem setLastColor_lastColor : (r.setLastColor c).lastColor = c := rfl
@[simp] theorem setLastColor_phase : (r.setLastColor c).phase = r.phase := rfl
@[simp] theorem setPhase_spShadow : (r.setPhase v).spShadow = r.spShadow := rfl
@[simp] theorem setPhase_bgShadow : (r.setPhase v).bgShadow = r.bgShadow := rfl
@[simp] theorem setPhase_lastColor : (r.setPhase v).lastColor = r.lastColor := rfl
@[simp] theorem setPhase_phase : (r.setPhase v).phase = v := rfl

/-- All four registers are 0, whatever they were (R82). -/
@[simp] theorem clearedShader_eq : clearedShader r = ⟨0, 0, 0, 0⟩ := rfl

end Registers

section Fields
variable (s : State) (r : ShaderState) (c : CfgReg) (q : Response) (e : Cause) (w : CmdWord)

@[simp] theorem setShader_shader : (s.setShader r).shader = r := rfl
@[simp] theorem setShader_cfg : (s.setShader r).cfg = s.cfg := rfl
@[simp] theorem setShader_rsp : (s.setShader r).rsp = s.rsp := rfl
@[simp] theorem setShader_inputs : (s.setShader r).inputs = s.inputs := rfl
@[simp] theorem setShader_pc : (s.setShader r).pc = s.pc := rfl
@[simp] theorem setCfg_shader : (s.setCfg c).shader = s.shader := rfl
@[simp] theorem setCfg_cfg : (s.setCfg c).cfg = c := rfl
@[simp] theorem setCfg_rsp : (s.setCfg c).rsp = s.rsp := rfl
@[simp] theorem setCfg_inputs : (s.setCfg c).inputs = s.inputs := rfl
@[simp] theorem setCfg_pc : (s.setCfg c).pc = s.pc := rfl
@[simp] theorem respond_shader : (s.respond q).shader = s.shader := rfl
@[simp] theorem respond_cfg : (s.respond q).cfg = s.cfg := rfl
@[simp] theorem respond_rsp : (s.respond q).rsp = some q := rfl
@[simp] theorem respond_inputs : (s.respond q).inputs = s.inputs := rfl
@[simp] theorem respond_pc : (s.respond q).pc = s.pc := rfl
@[simp] theorem raiseIllegal_shader : (raiseIllegal e s).shader = s.shader := rfl
@[simp] theorem raiseIllegal_cfg : (raiseIllegal e s).cfg = s.cfg := rfl
@[simp] theorem raiseIllegal_rsp : (raiseIllegal e s).rsp = some (.err e) := rfl
@[simp] theorem raiseIllegal_inputs : (raiseIllegal e s).inputs = s.inputs := rfl
@[simp] theorem raiseIllegal_pc : (raiseIllegal e s).pc = s.pc := rfl
@[simp] theorem advance_shader : (advance s).shader = s.shader := rfl
@[simp] theorem advance_cfg : (advance s).cfg = s.cfg := rfl
@[simp] theorem advance_rsp : (advance s).rsp = s.rsp := rfl
@[simp] theorem advance_inputs : (advance s).inputs = s.inputs := rfl
@[simp] theorem advance_pc : (advance s).pc = s.pc + 1 := rfl
@[simp] theorem platformReset_shader : (platformReset s).shader = ⟨0, 0, 0, 0⟩ := rfl
@[simp] theorem platformReset_cfg : (platformReset s).cfg = ⟨false, true⟩ := rfl
@[simp] theorem platformReset_rsp : (platformReset s).rsp = none := rfl
@[simp] theorem platformReset_inputs : (platformReset s).inputs = s.inputs := rfl
@[simp] theorem platformReset_pc : (platformReset s).pc = s.pc := rfl
@[simp] theorem placeCommand_shader : (placeCommand s w).shader = s.shader := rfl
@[simp] theorem placeCommand_cfg : (placeCommand s w).cfg = s.cfg := rfl
@[simp] theorem placeCommand_rsp : (placeCommand s w).rsp = s.rsp := rfl
@[simp] theorem placeCommand_pc : (placeCommand s w).pc = s.pc := rfl

/-- The word placed is the input read next, whatever the state. -/
@[simp] theorem fetch_placeCommand : fetch (placeCommand s w) = some (.command w) := by
  have len : (s.inputs.take s.pc ++ List.replicate (s.pc - s.inputs.length) (HostInput.command 0)).length = s.pc := by
    simp; omega
  simp only [fetch, placeCommand]
  rw [List.getElem?_append_right (by omega), len, Nat.sub_self, List.getElem?_cons_zero]

end Fields

end Sys2Proof.Machine
end

