-- ==== Sys2Proof/Laws/Spectral.lean ====
section
/-! SUPPORT. What each step of `SHADE.SPC` can do, said once; a proof cites these and does not unfold the steps. -/

namespace Sys2Proof.Machine

/-- Step 1 fires and rewrites `phase`, `bgShadow`, `lastColor`, `mute`, or it does nothing (R65). -/
theorem edgeStep_cases (p : Pixel) (a : Pass) :
    (onEdge p = true ∧
      edgeStep p a = ⟨⟨a.regs.spShadow, 0, p.bgColor, if p.bgIndex ≠ 0 then 7 else 14⟩, { a.loc with mute := true }⟩) ∨
    (onEdge p = false ∧ edgeStep p a = a) := by
  by_cases h : onEdge p = true
  · exact .inl ⟨h, by simp only [edgeStep, h, if_true]; rfl⟩
  · exact .inr ⟨by simpa using h, by simp [edgeStep, h]⟩

/-- Step 2 writes `spShadow` for a sprite pixel, and nothing else (R66). -/
theorem spriteStep_cases (p : Pixel) (a : Pass) :
    (p.decision = true ∧ spriteStep p a = ⟨{ a.regs with spShadow := bump a.regs.spShadow }, a.loc⟩) ∨
    (p.decision = false ∧ spriteStep p a = a) := by
  by_cases h : p.decision = true
  · exact .inl ⟨h, by simp only [spriteStep, h, if_true]; rfl⟩
  · exact .inr ⟨by simpa using h, by simp [spriteStep, h]⟩

/-- Step 3 never touches `spShadow`, and `lastColor` ends at `bgColor` (R14, R67). -/
theorem trackPhase_frame (p : Pixel) (mute : Bool) (r : ShaderState) :
    (trackPhase p mute r).spShadow = r.spShadow ∧ (trackPhase p mute r).lastColor = p.bgColor := by
  unfold trackPhase
  split
  next h => split <;> simp [h]
  next => dsimp only; split <;> (try split) <;> simp

/-- What step 3 leaves in `phase` (R67). -/
theorem trackPhase_phase (p : Pixel) (mute : Bool) (r : ShaderState) :
    (trackPhase p mute r).phase.toNat =
      if p.bgColor = r.lastColor then (if p.bgIndex = 0 then 0 else r.phase.toNat - 1)
      else if mute = true then r.phase.toNat else 14 := by
  unfold trackPhase
  dsimp only
  split_ifs <;> simp_all [decr_toNat, Config.phaseMax]

/-- What step 3 leaves in `bgShadow` (R67, R73). -/
theorem trackPhase_bgShadow (p : Pixel) (mute : Bool) (r : ShaderState) :
    (trackPhase p mute r).bgShadow.toNat =
      if p.bgColor ≠ r.lastColor ∧ mute = false ∧ p.bgIndex = 0 ∧ 0x20 ≤ p.bgColor.toNat then 3
      else r.bgShadow.toNat := by
  unfold trackPhase
  simp only [isDark_eq, Bool.not_eq_true', decide_eq_false_iff_not, Nat.not_lt]
  split_ifs <;> simp_all [Config.bgSet]

/-- Step 4 takes up to two off `spShadow` and one off `bgShadow` in every case, and forces dither only with a counter active (R68). -/
theorem decayStep_spec (p : Pixel) (a : Pass) :
    (decayStep p a).regs.spShadow.toNat = a.regs.spShadow.toNat - 2 ∧
    (decayStep p a).regs.bgShadow.toNat = a.regs.bgShadow.toNat - 1 ∧
    (decayStep p a).regs.lastColor = a.regs.lastColor ∧
    (decayStep p a).regs.phase = a.regs.phase ∧
    (decayStep p a).loc =
      { a.loc with dither := a.loc.dither || (shadowActive a.regs && decide (p.bgColor.toNat < 0x20)) } := by
  unfold decayStep
  by_cases h : shadowActive a.regs = true
  · simp [h, decr_toNat, isDark_eq]; omega
  · have : a.regs.spShadow = 0 ∧ a.regs.bgShadow = 0 := by simpa [shadowActive] using h
    simp [h, this]

/-- Step 5 writes no register, and the flags `mute` and `dither` stay (R69, R72). -/
theorem levelStep_frame (p : Pixel) (c : CfgReg) (a : Pass) :
    (levelStep p c a).regs = a.regs ∧ (levelStep p c a).loc.mute = a.loc.mute ∧
    (levelStep p c a).loc.dither = a.loc.dither := by
  unfold levelStep
  split <;> simp

/-- The level before the shadow bias is 3, 4 or 5 (R75). -/
theorem curveLevel_range (p : Pixel) (r : ShaderState) : 3 ≤ curveLevel p r ∧ curveLevel p r ≤ 5 := by
  unfold curveLevel
  split
  · decide
  · exact curve_range _

end Sys2Proof.Machine
end

