-- ==== Sys2Proof/Laws/Step.lean ====
section
/-! SUPPORT. The meaning of every command as one equation, and what a step can do, said once. -/

namespace Sys2Proof.Machine

section Meanings
variable (s : State) (p : Pixel)

theorem exec_nop : exec .nop s = .next (s.respond .done) := rfl
theorem exec_shadeStd : exec (.shadeStd p) s = .next (s.respond (.data (standardColor p))) := rfl
theorem exec_shadeSpc : exec (.shadeSpc p) s =
    .next ((s.setShader (spectralPass p s.cfg s.shader).regs).respond
      (.data (outputColor p (spectralPass p s.cfg s.shader)))) := rfl
theorem exec_clrst : exec .clrst s = .next ((s.setShader ⟨0, 0, 0, 0⟩).respond .done) := rfl
theorem exec_cfg (d e : Bool) : exec (.cfg d e) s = .next ((s.setCfg ⟨d, e⟩).respond .done) := rfl

/-- `LUT` at a level the ROM has (R84). -/
theorem exec_lut_level {level : BitVec 3} {l : Level} (h : levelOf level = some l) (index : RomIndex) :
    exec (.lut level index) s = .next (s.respond (.data (romRead l index))) := by
  simp [exec, execLut, h]

/-- `LUT` at level 7 takes `IllegalCommand` (R84). -/
theorem exec_lut_seven (index : RomIndex) : exec (.lut 7 index) s = .next (raiseIllegal .romLevel s) := rfl

/-- Every command answers a next state, which it may have changed only in `shader`, `cfg` and `rsp` (R9, R85). -/
theorem exec_next (i : Instr) (s : State) : ∃ r c q, exec i s = .next { s with shader := r, cfg := c, rsp := some q } := by
  cases i with
  | nop => exact ⟨_, _, _, exec_nop s⟩
  | shadeStd p => exact ⟨_, _, _, exec_shadeStd s p⟩
  | shadeSpc p => exact ⟨_, _, _, exec_shadeSpc s p⟩
  | clrst => exact ⟨_, _, _, exec_clrst s⟩
  | cfg d e => exact ⟨_, _, _, exec_cfg s d e⟩
  | lut level index =>
    cases h : levelOf level with
    | some l => exact ⟨_, _, _, exec_lut_level s h index⟩
    | none => rw [(levelOf_eq_none level).1 h]; exact ⟨_, _, _, exec_lut_seven s index⟩

end Meanings

/-- What a step can do: hold everything without input, take `RESET`, answer an illegal word, or run a command and move on. -/
theorem step_cases {s t : State} (h : step s = .next t) :
    (fetch s = none ∧ t = s) ∨
    (∃ x, fetch s = some (.reset x) ∧ t = advance (platformReset s)) ∨
    (∃ w c, fetch s = some (.command w) ∧ decode w = .error c ∧ t = advance (raiseIllegal c s)) ∨
    (∃ w i u, fetch s = some (.command w) ∧ decode w = .ok i ∧ exec i s = .next u ∧ t = advance u) := by
  unfold step at h
  split at h
  next x hx =>
    cases x with
    | reset x => exact .inr (.inl ⟨x, hx, by simpa [takeInput, advanced] using h.symm⟩)
    | command w =>
      simp only [takeInput, runWord] at h
      split at h
      next i hi =>
        obtain ⟨r, c, q, hq⟩ := exec_next i s
        exact .inr (.inr (.inr ⟨w, i, _, hx, hi, hq, by simpa [hq, advanced] using h.symm⟩))
      next c hc => exact .inr (.inr (.inl ⟨w, c, hx, hc, by simpa [advanced] using h.symm⟩))
  next hx => exact .inl ⟨hx, by simpa [idle] using h.symm⟩

/-- A step on a decoded command. -/
theorem step_command {s : State} {w : CmdWord} {i : Instr} (hw : fetch s = some (.command w)) (hi : decode w = .ok i) :
    step s = advanced (exec i s) := by simp [step, hw, takeInput, runWord, hi]

/-- A step on an illegal word. -/
theorem step_illegal {s : State} {w : CmdWord} {c : Cause} (hw : fetch s = some (.command w)) (hc : decode w = .error c) :
    step s = .next (advance (raiseIllegal c s)) := by simp [step, hw, takeInput, runWord, hc, advanced]

/-- A step on `RESET`. -/
theorem step_reset {s : State} {x : Option CmdWord} (hx : fetch s = some (.reset x)) :
    step s = .next (advance (platformReset s)) := by simp [step, hx, takeInput, advanced]

/-- A step without input. -/
theorem step_idle {s : State} (h : fetch s = none) : step s = .next s := by simp [step, h, idle]

/-- The word placed by `withFetchWord` is the one the next step takes. -/
theorem fetch_withFetchWord (s : State) (nbits w : Nat) :
    fetch (s.withFetchWord nbits w) = some (.command (tableWord nbits w)) := fetch_placeCommand s _

end Sys2Proof.Machine
end

