-- ==== Sys2Proof/Tests/Slice0.lean ====
section
/-! SUPPORT. The model's own tests: expected values are those of the spec's vectors (95_test_vectors.md, named by their id) or
read off the rule named. Then, for every statement with hypotheses, a witness that meets all of them. -/

namespace Sys2Proof.Tests

open Sys2Proof Sys2Proof.Machine Sys2Proof.Reference Sys2Proof.Safety

/-- A block with the given registers that is about to take the inputs. -/
def block (r : ShaderState) (c : CfgReg) (inputs : List HostInput) : State := ⟨r, c, none, inputs, 0⟩

/-- One step of that block on one word. -/
def stepOn (r : ShaderState) (c : CfgReg) (w : CmdWord) : Host.Outcome State Fault Refusal :=
  step (block r c [.command w])

/-- The next state in which that step leaves registers, options and response as given. -/
def after (r : ShaderState) (c : CfgReg) (q : Response) (w : CmdWord) : Host.Outcome State Fault Refusal :=
  .next ⟨r, c, some q, [.command w], 1⟩

/-- The registers most vectors start from. -/
def dirty : ShaderState := ⟨4, 2, 0x15, 11⟩

/-! ### Well-formedness and encoding -/

/-- R52, R55: the one check, and a term it refuses. -/
theorem test_wellFormed_refuses_level_seven :
    (Instr.lut 7 0).wellFormed = false ∧ (Instr.lut 6 127).wellFormed = true := by decide

/-- R50: format Z, `op` = 0. -/
theorem test_decode_nop : decode 0b000_000000000000000000000000000000000000000000000 = .ok .nop := rfl

/-- R49, S3: op 1, must be zero, scanLine 261, fineY 7, dot 340, fineX 7, bgIndex 3, bgColor 0x3F, spIndex 3, spColor 0, 1, 1. -/
theorem test_decode_shadeStd :
    decode 0b001_000_100000101_111_101010100_111_11_111111_11_000000_1_1 =
      .ok (.shadeStd ⟨261, 7, 340, 7, 3, 0x3F, 3, 0x00, true, true⟩) := rfl

/-- R49: op 2, with a different value in every field, so that no two can be swapped. -/
theorem test_decode_shadeSpc :
    decode 0b010_000_000001010_001_000101000_110_01_100001_10_010110_0_1 =
      .ok (.shadeSpc ⟨10, 1, 40, 6, 1, 0x21, 2, 0x16, false, true⟩) := rfl

/-- R50: format Z, `op` = 3. -/
theorem test_decode_clrst : decode 0b011_000000000000000000000000000000000000000000000 = .ok .clrst := rfl

/-- R51: op 4, `fxDither` in bit 1, `fxTransparency` in bit 0. -/
theorem test_decode_cfg : decode 0b100_0000000000000000000000000000000000000000000_1_0 = .ok (.cfg true false) := rfl

/-- R52: op 5, `level` 6 in bits 9:7, `index` 0x2F in bits 6:0. -/
theorem test_decode_lut : decode 0b101_00000000000000000000000000000000000_110_0101111 = .ok (.lut 6 0x2F) := rfl

/-- R53: the reserved opcodes, IL3 with everything set. -/
theorem test_decode_reserved_opcode :
    decode 0xC00000000000 = .error .reservedOpcode ∧ decode 0xFFFFFFFFFFFF = .error .reservedOpcode := ⟨rfl, rfl⟩

/-- R55: the lowest and the highest must-be-zero bit of each format (IL5 to IL13). -/
theorem test_decode_reserved_bits :
    decode 0x000000000001 = .error .reservedBits ∧ decode 0x100000000000 = .error .reservedBits ∧
    decode 0x240000010401 = .error .reservedBits ∧ decode 0x500000010401 = .error .reservedBits ∧
    decode 0x600000000001 = .error .reservedBits ∧ decode 0x800000000004 = .error .reservedBits ∧
    decode 0x900000000000 = .error .reservedBits ∧ decode 0xA00000000400 = .error .reservedBits :=
  ⟨rfl, rfl, rfl, rfl, rfl, rfl, rfl, rfl⟩

/-- R55, R89: level 7 (IL16), and the reserved bit that wins over it (IL14). -/
theorem test_decode_level_seven :
    decode 0xA000000003FF = .error .romLevel ∧ decode 0xA00000000780 = .error .reservedBits := ⟨rfl, rfl⟩

/-- 95_test_vectors.md 2.1, SP1, CT12: the words of three commands. -/
theorem test_encode :
    encode (.shadeStd ⟨5, 1, 0, 0, 1, 0x21, 2, 0x16, false, false⟩) = 0x200A40018658 ∧
    encode (.shadeSpc ⟨10, 0, 20, 0, 1, 0x21, 1, 0x16, true, true⟩) = 0x40140281855B ∧
    encode (.lut 3 0x7F) = 0xA000000001FF := by decide

/-- The bits above the table's width read as 0. -/
theorem test_decodeTableWord :
    decodeTableWord 48 0x800000000003 = some (.cfg true true) ∧ decodeTableWord 8 0x800000000003 = none := by decide

/-- R58: a line in field order, and an operand out of range. -/
theorem test_assembler_lut :
    Assembler.line "LUT" [0, 0x50] = some [.lut 0 0x50] ∧ Assembler.line "LUT" [0, 128] = none := by decide

/-- R59: a pseudo-command, and a colour out of range. -/
theorem test_assembler_lutS :
    Assembler.line "LUT.S" [1, 0x1F] = some [.lut 1 0x5F] ∧ Assembler.line "LUT.S" [1, 64] = none := by decide

/-! ### Single steps -/

/-- Vector CT1. -/
theorem test_nop : stepOn dirty ⟨true, false⟩ 0x000000000000 = after dirty ⟨true, false⟩ .done 0x000000000000 := rfl

/-- Vector S2. -/
theorem test_shadeStd_sprite :
    stepOn ⟨1, 2, 0x03, 4⟩ ⟨false, true⟩ 0x200000003FC2 =
      after ⟨1, 2, 0x03, 4⟩ ⟨false, true⟩ (.data 0x30) 0x200000003FC2 := rfl

/-- Vector S4. -/
theorem test_shadeStd_background :
    stepOn ⟨9, 3, 0x3F, 14⟩ ⟨true, false⟩ 0x23FFFFFFFFFC =
      after ⟨9, 3, 0x3F, 14⟩ ⟨true, false⟩ (.data 0x3F) 0x23FFFFFFFFFC := rfl

/-- Vector BG2: colour change to a bright universal background. -/
theorem test_shadeSpc_change :
    stepOn ⟨0, 0, 0x11, 4⟩ ⟨false, true⟩ 0x40140520C001 =
      after ⟨0, 2, 0x30, 14⟩ ⟨false, true⟩ (.data 0x20) 0x40140520C001 := rfl

/-- Vector EX7: exempt column, shadow active, even parity, shadow half at level 2. -/
theorem test_shadeSpc_black :
    stepOn ⟨4, 0, 0x0A, 8⟩ ⟨false, true⟩ 0x401405012801 =
      after ⟨2, 0, 0x0A, 7⟩ ⟨false, true⟩ (.data 0x2D) 0x401405012801 := rfl

/-- Vector CT2. -/
theorem test_clrst :
    stepOn dirty ⟨true, false⟩ 0x600000000000 = after ⟨0, 0, 0x00, 0⟩ ⟨true, false⟩ .done 0x600000000000 := rfl

/-- Vector CT6. -/
theorem test_cfg : stepOn dirty ⟨false, true⟩ 0x800000000002 = after dirty ⟨true, false⟩ .done 0x800000000002 := rfl

/-- Vector CT14: column 0xF rises two rows only. -/
theorem test_lut_saturates :
    stepOn dirty ⟨false, true⟩ 0xA0000000030F = after dirty ⟨false, true⟩ (.data 0x2F) 0xA0000000030F := rfl

/-- Vector CT20: the shadow half gives `BLACK`. -/
theorem test_lut_black :
    stepOn dirty ⟨false, true⟩ 0xA0000000014C = after dirty ⟨false, true⟩ (.data 0x2D) 0xA0000000014C := rfl

/-- Vector IL7: an illegal `CLRST` does not clear. -/
theorem test_illegal_clrst :
    stepOn dirty ⟨true, false⟩ 0x600000000001 = after dirty ⟨true, false⟩ (.err .reservedBits) 0x600000000001 := rfl

/-- Vector IL15, with the cause on the port (R57). -/
theorem test_illegal_level :
    stepOn dirty ⟨true, false⟩ 0xA00000000380 = after dirty ⟨true, false⟩ (.err .romLevel) 0xA00000000380 ∧
    responseData (.err .romLevel) = 3 ∧ responseStatus (.err .romLevel) = 2 := ⟨rfl, rfl, rfl⟩

/-- R100: `RESET` with a command in progress. -/
theorem test_reset_event :
    step (block dirty ⟨true, false⟩ [.reset (some 0x600000000000)]) =
      .next ⟨⟨0, 0, 0, 0⟩, ⟨false, true⟩, none, [.reset (some 0x600000000000)], 1⟩ := rfl

/-- E9, first row: the word placed at reset is the command the next step runs. -/
theorem test_withFetchWord_from_reset :
    step (State.reset.withFetchWord 48 0x400000010401) =
      .next ⟨⟨0, 0, 0x01, 6⟩, ⟨false, true⟩, some (.data 0x21), [.command 0x400000010401], 1⟩ := rfl

/-- A list shorter than the place is filled up, one that reaches past it keeps its tail. -/
theorem test_withFetchWord_places :
    fetch ({ State.reset with pc := 2 }.withFetchWord 48 0xA00000000010) = some (.command 0xA00000000010) ∧
    ((block dirty ⟨false, true⟩ [.reset none, .command 1]).withFetchWord 48 0).inputs = [.command 0, .command 1] := by
  decide

/-! ### Witnesses: the hypotheses of the statements can be met -/

/-- A pixel of the universal background, in the given column and with the given mask. -/
def edge (dot : BitVec 9) (showLeft : Bool) : Pixel := ⟨0, 0, dot, 0, 0, 0x21, 0, 0, false, showLeft⟩

/-- The block of many witnesses: about to take the word. -/
def about (w : CmdWord) : State := block dirty ⟨false, true⟩ [.command w]

theorem witness_DecodeEncodeRoundTrip :
    Instr.nop.wellFormed = true ∧ (Instr.shadeStd ⟨511, 7, 511, 7, 3, 63, 3, 63, true, true⟩).wellFormed = true ∧
    (Instr.shadeSpc ⟨0, 0, 0, 0, 0, 0, 0, 0, false, false⟩).wellFormed = true ∧ Instr.clrst.wellFormed = true ∧
    (Instr.cfg true true).wellFormed = true ∧ (Instr.lut 6 127).wellFormed = true := by decide

theorem witness_DecodedWordIsTheEncoding :
    decode 0 = .ok .nop ∧ decode 0xA0000000037F = .ok (.lut 6 0x7F) := ⟨rfl, rfl⟩

/-- Words on both sides of every row: `NOP` and its neighbour, `LUT` at level 6 and 7. -/
theorem witness_DecodeFollowsOpcodeMap :
    rowMatches ⟨"NOP", 0, 0xFFFFFFFFFFFF⟩ 0 = true ∧
    rowMatches ⟨"LUT", 0xA00000000000, 0xFFFFFFFFFC00⟩ 0xA0000000037F = true ∧
    (∀ row ∈ opcodeMap, rowMatches row 1 = false) ∧ (∀ row ∈ opcodeMap, rowMatches row 0xA00000000380 = false) ∧
    (∀ row ∈ opcodeMap, rowMatches row 0xC00000000000 = false) := by decide

/-- A word under each condition of R55. -/
theorem witness_IllegalWordsAndTheirCauses :
    hasOp 0xC00000000000 6 ∧ hasOp 0xFFFFFFFFFFFF 7 ∧
    (hasOp 1 0 ∧ (1 : CmdWord).toNat % 2 ^ 45 ≠ 0) ∧
    (hasOp 0x240000000000 1 ∧ (0x240000000000 : CmdWord).toNat / 2 ^ 42 % 2 ^ 3 ≠ 0) ∧
    (hasOp 0x500000000000 2 ∧ (0x500000000000 : CmdWord).toNat / 2 ^ 42 % 2 ^ 3 ≠ 0) ∧
    (hasOp 0x700000000000 3 ∧ (0x700000000000 : CmdWord).toNat % 2 ^ 45 ≠ 0) ∧
    (hasOp 0x800000000004 4 ∧ (0x800000000004 : CmdWord).toNat / 2 ^ 2 % 2 ^ 43 ≠ 0) ∧
    (hasOp 0xA00000000400 5 ∧ (0xA00000000400 : CmdWord).toNat / 2 ^ 10 % 2 ^ 35 ≠ 0) ∧
    (hasOp 0xA00000000380 5 ∧ (0xA00000000380 : CmdWord).toNat / 2 ^ 10 % 2 ^ 35 = 0 ∧
      (0xA00000000380 : CmdWord).toNat / 2 ^ 7 % 2 ^ 3 = 7) := by decide

/-- An illegal word that is the next input (`raises` asks for one). -/
theorem witness_raises :
    (about 0xA00000000380).inputs[(about 0xA00000000380).pc]? = some (.command 0xA00000000380) ∧
    decode 0xA00000000380 = .error .romLevel := ⟨rfl, rfl⟩

theorem witness_LinesStandForCommands :
    (Instr.lut 6 127).wellFormed = true ∧ Assembler.command "LUT" [6, 127] = some (.lut 6 127) ∧
    Assembler.command "CFG" [1, 0] = some (.cfg true false) := by decide

theorem witness_PseudoCommandsExpand : (0 ≤ 6 ∧ 0 ≤ 63) ∧ 6 ≤ 6 ∧ 63 ≤ 63 := by decide

theorem witness_StepRunsDecodedCommand :
    (about 0x40140281855B).inputs[(about 0x40140281855B).pc]? = some (.command 0x40140281855B) ∧
    decode 0x40140281855B = .ok (.shadeSpc ⟨10, 0, 20, 0, 1, 0x21, 1, 0x16, true, true⟩) ∧
    (Instr.shadeSpc ⟨10, 0, 20, 0, 1, 0x21, 1, 0x16, true, true⟩).wellFormed = true := ⟨rfl, rfl, rfl⟩

theorem witness_IllegalWordChangesNothing :
    (about 0xE00000000000).inputs[(about 0xE00000000000).pc]? = some (.command 0xE00000000000) ∧
    decode 0xE00000000000 = .error .reservedOpcode := ⟨rfl, rfl⟩

/-- P2, inputs 4 and 5. -/
def illegalThenLegal : State :=
  block ⟨0, 2, 0x31, 14⟩ ⟨false, true⟩ [.command 0x500000C60401, .command 0x40180CE0C401]

theorem witness_CommandAfterIllegalRunsNormally :
    illegalThenLegal.inputs[illegalThenLegal.pc]? = some (.command 0x500000C60401) ∧
    decode 0x500000C60401 = .error .reservedBits ∧
    illegalThenLegal.inputs[illegalThenLegal.pc + 1]? = some (.command 0x40180CE0C401) ∧
    decode 0x40180CE0C401 = .ok (.shadeSpc ⟨12, 0, 103, 0, 0, 0x31, 0, 0x00, false, true⟩) := ⟨rfl, rfl, rfl, rfl⟩

/-- The place at the end of the list, and beyond it. -/
theorem witness_NoInputHoldsEverything :
    State.reset.inputs.length ≤ State.reset.pc ∧ ({ about 0 with pc := 7 } : State).inputs.length ≤ 7 := by decide

theorem witness_ResetEventFromEveryState :
    (block dirty ⟨true, false⟩ [.reset none]).inputs[0]? = some (.reset none) ∧
    (block dirty ⟨true, false⟩ [.reset (some 0)]).inputs[0]? = some (.reset (some 0)) := by decide

theorem witness_NopDoesNothing : hasOp 0x100000000000 0 ∧ (0x100000000000 : CmdWord).toNat % 2 ^ 45 ≠ 0 := by decide

theorem witness_ClrstZeroesTheRegisters :
    hasOp 0x600000000001 3 ∧ (0x600000000001 : CmdWord).toNat % 2 ^ 45 ≠ 0 := by decide

theorem witness_CfgWritesBothOptions_next :
    exec (.cfg true false) (about 0) = .next { about 0 with cfg := ⟨true, false⟩, rsp := some .done } := rfl

theorem witness_CfgWritesBothOptions_others :
    exec .clrst (about 0) = .next { about 0 with shader := ⟨0, 0, 0, 0⟩, rsp := some .done } ∧
    ∀ d t, Instr.clrst ≠ .cfg d t := ⟨rfl, by decide⟩

theorem witness_CfgWritesBothOptions_bits :
    hasOp 0x800000000007 4 ∧ (0x800000000007 : CmdWord).toNat / 2 ^ 2 % 2 ^ 43 ≠ 0 := by decide

theorem witness_LutReadsTheListing :
    hasOp 0xB00000000000 5 ∧ (0xB00000000000 : CmdWord).toNat / 2 ^ 10 % 2 ^ 35 ≠ 0 := by decide

theorem witness_NoInputChangesTheRom :
    step (about 0x600000000000) = after ⟨0, 0, 0, 0⟩ ⟨false, true⟩ .done 0x600000000000 := rfl

theorem witness_StandardShaderMultiplexes :
    (hasOp 0x200000003FC2 1 ∧ (0x200000003FC2 : CmdWord).toNat / 2 ^ 42 % 2 ^ 3 = 0) ∧
    hasOp 0x300000000000 1 ∧ (0x300000000000 : CmdWord).toNat / 2 ^ 42 % 2 ^ 3 ≠ 0 := by decide

theorem witness_SpectralRunsItsStepsInOrder :
    hasOp 0x480000010401 2 ∧ (0x480000010401 : CmdWord).toNat / 2 ^ 42 % 2 ^ 3 ≠ 0 := by decide

/-- R65 at its boundary columns: 1 and 2 without the mask, 8 and 9 with it. -/
theorem witness_EdgeResetStep :
    (edgeStep (edge 1 true) ⟨dirty, ⟨false, false, 3, 0⟩⟩).regs = ⟨4, 0, 0x21, 14⟩ ∧
    (edgeStep (edge 2 true) ⟨dirty, ⟨false, false, 3, 0⟩⟩).regs = dirty ∧
    (edgeStep (edge 8 false) ⟨dirty, ⟨false, false, 3, 0⟩⟩).regs = ⟨4, 0, 0x21, 14⟩ ∧
    (edgeStep (edge 9 false) ⟨dirty, ⟨false, false, 3, 0⟩⟩).regs = dirty := by decide

/-- R66 at 4 and 5, where the ceiling is met, and at the unreachable 15. -/
theorem witness_SpriteShadowStep :
    ({ edge 0 true with decision := true }).decision = true ∧ (edge 0 true).decision = false ∧
    bump 4 = 9 ∧ bump 5 = 9 ∧ bump 3 = 8 ∧ bump 15 = 9 := by decide

/-- The branches of step 3: same colour, change while muted, change unmuted with a dark and a bright colour. -/
theorem witness_PhaseTrackingStep :
    (edge 0 true).bgColor = (⟨0, 0, 0x21, 5⟩ : ShaderState).lastColor ∧ (edge 0 true).bgColor ≠ dirty.lastColor ∧
    (⟨true, false, 3, 0⟩ : Locals).mute = true ∧ (⟨false, false, 3, 0⟩ : Locals).mute = false ∧
    romImage 1 (64 + (0x1F : Color).setWidth 7) = 0x2D ∧ romImage 1 (64 + (0x20 : Color).setWidth 7) ≠ 0x2D := by decide

/-- The counters at 0, at 1 in either of them, and above. -/
theorem witness_ShadowDecayStep :
    ((⟨0, 0, 0, 7⟩ : ShaderState).spShadow = 0 ∧ (⟨0, 0, 0, 7⟩ : ShaderState).bgShadow = 0) ∧
    (⟨1, 0, 0, 7⟩ : ShaderState).spShadow ≠ 0 ∧ (⟨0, 1, 0, 7⟩ : ShaderState).bgShadow ≠ 0 := by decide

/-- The sprite wins, shows through, does not because the option is off, is absent. -/
theorem witness_LevelSelectionStep :
    ({ edge 0 true with decision := true }).decision = true ∧
    ((⟨false, true⟩ : CfgReg).fxTransparency = true ∧ ({ edge 0 true with spIndex := 2 }).spIndex ≠ 0) ∧
    ¬((edge 0 true).decision = true ∨
      ((⟨false, false⟩ : CfgReg).fxTransparency = true ∧ ({ edge 0 true with spIndex := 2 }).spIndex ≠ 0)) ∧
    ¬((edge 0 true).decision = true ∨ ((⟨false, true⟩ : CfgReg).fxTransparency = true ∧ (edge 0 true).spIndex ≠ 0)) := by
  decide

theorem witness_OutputLookupStep :
    ({ edge 0 true with decision := true }).decision = true ∧ (⟨false, false, 3, 0⟩ : Locals).pshift = 3 := by decide

theorem witness_SpritePixelsAreNeverShaded : ({ edge 0 true with decision := true }).decision = true := rfl

/-- A muted pass whose colour differs cannot come from step 1; an unmuted one does (column 2). -/
theorem witness_MuteFlagIsUnobservable :
    (edge 2 true).bgColor ≠
      (spriteStep (edge 2 true) (edgeStep (edge 2 true) (passStart (edge 2 true) ⟨false, true⟩ dirty))).regs.lastColor ∧
    (edgeStep (edge 1 true) (passStart (edge 1 true) ⟨false, true⟩ dirty)).loc.mute = true := by decide

/-- Vector LO6: level 2, colour 0x0F, routed to `BLACK`. -/
theorem witness_OutputLevelIsTwoToFive :
    let p : Pixel := ⟨10, 0, 40, 0, 1, 0x0F, 0, 0, false, true⟩
    let a := spectralPass p ⟨false, true⟩ ⟨4, 0, 0x0F, 14⟩
    p.decision = false ∧ romRead a.loc.pshift a.loc.color ≠ romRead a.loc.pshift (p.bgColor.setWidth 7) ∧
    (2 ≤ (2 : Level).val ∧ (5 : Level).val ≤ 5) := by decide

/-- Vectors DI5 and DI9: other coordinates of the same parity; and `dot` at the boundary, 8 apart from 9. -/
theorem witness_CoordinatesMatterOnlyByParity :
    parityBit ⟨511, 7, 511, 7, 1, 0x2C, 0, 0, false, true⟩ = parityBit ⟨10, 0, 40, 0, 1, 0x2C, 0, 0, false, true⟩ ∧
    min (511 : BitVec 9).toNat 9 = min (40 : BitVec 9).toNat 9 ∧ min (8 : BitVec 9).toNat 9 ≠ min (9 : BitVec 9).toNat 9 ∧
    parityBit ⟨10, 0, 41, 0, 1, 0x2C, 0, 0, false, true⟩ = true := by decide

/-- Columns 0, 1 and 8 take the edge reset; 8 without the mask and 9 do not. -/
theorem witness_EdgeResetEndValues :
    (edge 1 true).dot.toNat < 2 ∧ ((edge 8 false).showLeft = false ∧ (edge 8 false).dot.toNat < 9) ∧
    ¬((edge 9 false).dot.toNat < 2 ∨ ((edge 9 false).showLeft = false ∧ (edge 9 false).dot.toNat < 9)) ∧
    (edge 8 false).decision = false := by decide

/-- The two fixed points, and a non-universal pixel outside the edge columns. -/
theorem witness_ShadowCountersOverACommand :
    (({ edge 0 true with decision := true }).decision = true ∧ (⟨7, 0, 0, 0⟩ : ShaderState).spShadow = 7) ∧
    ((edge 0 true).decision = false ∧ State.reset.shader.spShadow = 0) ∧
    (({ edge 2 true with bgIndex := 3 }).bgIndex ≠ 0 ∧ 2 ≤ (edge 2 true).dot.toNat ∧ (edge 2 true).showLeft = true) := by
  decide

/-- Two pixels and two states that differ in everything the registers do not depend on; vectors TR1 and TR4 answer alike. -/
theorem witness_OtherOperandsNeverReachTheRegisters :
    let p : Pixel := ⟨10, 0, 40, 0, 1, 0x21, 0, 0x16, false, true⟩
    let q : Pixel := ⟨12, 5, 40, 7, 1, 0x21, 2, 0x3F, false, true⟩
    let s := block ⟨0, 0, 0x21, 8⟩ ⟨false, true⟩ []
    let s' := block ⟨0, 0, 0x21, 8⟩ ⟨true, false⟩ [.reset none]
    s.shader = s'.shader ∧ p.dot = q.dot ∧ p.showLeft = q.showLeft ∧ p.bgIndex = q.bgIndex ∧ p.bgColor = q.bgColor ∧
    p.decision = q.decision ∧
    exec (.shadeSpc p) s = .next { s with shader := ⟨0, 0, 0x21, 7⟩, rsp := some (.data 0x31) } ∧
    exec (.shadeSpc q) s' = .next { s' with shader := ⟨0, 0, 0x21, 7⟩, rsp := some (.data 0x31) } :=
  ⟨rfl, rfl, rfl, rfl, rfl, rfl, rfl, rfl⟩

theorem witness_SpectralKeepsTheColumn :
    ({ edge 0 true with decision := true }).decision = true ∧ (edge 0 true).decision = false := by decide

theorem witness_OptionsChangeOnlyResponses :
    exec (.cfg true true) (about 0) = .next { about 0 with cfg := ⟨true, true⟩, rsp := some .done } := rfl

/-- The first pixel in column 2, and in column 9 behind the mask. -/
theorem witness_FirstPixelAfterClear :
    exec .clrst (about 0) = .next { about 0 with shader := ⟨0, 0, 0, 0⟩, rsp := some .done } ∧
    (2 ≤ (edge 2 true).dot.toNat ∧ (edge 2 true).showLeft = true) ∧
    (2 ≤ (edge 9 false).dot.toNat ∧ 9 ≤ (edge 9 false).dot.toNat) := ⟨rfl, by decide, by decide⟩

/-- Vector SD3: the top of the documented ranges. -/
def topOfRanges : State := block ⟨9, 3, 0x21, 14⟩ ⟨false, true⟩ [.command 0x401406418401]

theorem witness_StepKeepsDocumentedRanges :
    InRange topOfRanges ∧
    step topOfRanges = after ⟨7, 2, 0x21, 13⟩ ⟨false, true⟩ (.data 0x11) 0x401406418401 := ⟨by decide, rfl⟩

theorem witness_StepKeepsBoundaryRanges :
    AtBoundary (block ⟨7, 2, 0x3F, 14⟩ ⟨true, true⟩ [.command 0]) ∧
    step (block ⟨7, 2, 0x3F, 14⟩ ⟨true, true⟩ [.command 0]) = after ⟨7, 2, 0x3F, 14⟩ ⟨true, true⟩ .done 0 :=
  ⟨by decide, rfl⟩

theorem witness_SpectralEntersBoundaryRanges :
    InRange topOfRanges ∧
    exec (.shadeSpc ⟨10, 0, 50, 0, 1, 0x21, 0, 0, false, true⟩) topOfRanges =
      .next { topOfRanges with shader := ⟨7, 2, 0x21, 13⟩, rsp := some (.data 0x11) } := ⟨by decide, rfl⟩

/-- The bounds of the ranges are met by 0 and by the bound itself. -/
theorem witness_EveryBoundaryValueOccurs : (0 ≤ 7 ∧ 7 ≤ 7) ∧ (0 ≤ 2 ∧ 2 ≤ 2) ∧ 0 ≤ 14 ∧ 14 ≤ 14 := by decide

/-- A command that writes `S`, and one that writes `CFG`. -/
theorem witness_CommandFrames :
    (exec .clrst (about 0) = .next { about 0 with shader := ⟨0, 0, 0, 0⟩, rsp := some .done } ∧
      (⟨0, 0, 0, 0⟩ : ShaderState) ≠ (about 0).shader) ∧
    exec (.cfg true true) (about 0) = .next { about 0 with cfg := ⟨true, true⟩, rsp := some .done } ∧
      (⟨true, true⟩ : CfgReg) ≠ (about 0).cfg := ⟨⟨rfl, by decide⟩, rfl, by decide⟩

/-- Each event that writes `S`: `SHADE.SPC`, `CLRST`, `RESET`. -/
theorem witness_OnlyTheseWriteTheRegisters :
    (step (about 0x400000018400) = after ⟨2, 0, 0x21, 6⟩ ⟨false, true⟩ (.data 0x31) 0x400000018400 ∧
      (⟨2, 0, 0x21, 6⟩ : ShaderState) ≠ dirty) ∧
    (step (about 0x600000000000) = after ⟨0, 0, 0, 0⟩ ⟨false, true⟩ .done 0x600000000000 ∧
      (⟨0, 0, 0, 0⟩ : ShaderState) ≠ dirty) ∧
    step (block dirty ⟨false, true⟩ [.reset none]) = .next ⟨⟨0, 0, 0, 0⟩, ⟨false, true⟩, none, [.reset none], 1⟩ :=
  ⟨⟨rfl, by decide⟩, ⟨rfl, by decide⟩, rfl⟩

theorem witness_OnlyTheseWriteTheOptions :
    (step (about 0x800000000002) = after dirty ⟨true, false⟩ .done 0x800000000002 ∧
      (⟨true, false⟩ : CfgReg) ≠ ⟨false, true⟩) ∧
    step (block dirty ⟨true, false⟩ [.reset none]) = .next ⟨⟨0, 0, 0, 0⟩, ⟨false, true⟩, none, [.reset none], 1⟩ :=
  ⟨⟨rfl, by decide⟩, rfl⟩

theorem witness_LegalCommandsComplete :
    (Instr.lut 6 127).wellFormed = true ∧ (Instr.lut 0 0).wellFormed = true := by decide

theorem witness_EveryStepCompletes :
    (about 0).pc < (about 0).inputs.length ∧ (about 0).inputs[(about 0).pc]? = some (.command 0) := by decide

/-- A word for each clause of R57. -/
theorem witness_ResponsePorts :
    (about 0).inputs[(about 0).pc]? = some (.command 0) ∧ step (about 0) = after dirty ⟨false, true⟩ .done 0 ∧
    decode 0 = .ok .nop ∧ decode 0x600000000000 = .ok .clrst ∧ decode 0x800000000001 = .ok (.cfg false true) ∧
    decode 0x200000003CC1 = .ok (.shadeStd ⟨0, 0, 0, 0, 0, 0x0F, 0, 0x30, false, true⟩) ∧
    decode 0x400000018400 = .ok (.shadeSpc ⟨0, 0, 0, 0, 1, 0x21, 0, 0x00, false, false⟩) ∧
    decode 0xA0000000037F = .ok (.lut (BitVec.ofNat 3 (6 : Level).val) 0x7F) ∧
    decode 0xC00000000000 = .error .reservedOpcode ∧ decode 0x000000000001 = .error .reservedBits ∧
    decode 0xA00000000380 = .error .romLevel := ⟨rfl, rfl, rfl, rfl, rfl, rfl, rfl, rfl, rfl, rfl, rfl⟩

/-- The ends of the address map and the first address past it. -/
theorem witness_FlatAddresses :
    flatAddress 0 0 = 0 ∧ flatAddress 6 127 = 0x37F ∧ 0x37F ≤ 0x37F ∧ 0x380 ≤ 0x380 := by decide

/-- Two copies, both with an input, and their numbers. -/
theorem witness_InstancesDoNotInteract :
    (0 : Nat) ≠ 1 ∧ [about 0, illegalThenLegal][0]? = some (about 0) ∧
    [about 0, illegalThenLegal][1]? = some illegalThenLegal := by decide

/-- R87 on P2, inputs 4 and 5: the legal command after the illegal word takes the `ERR` away, and the run stays marked. -/
theorem test_run_stays_marked :
    runWentWrong 0 illegalThenLegal = false ∧ runCause 1 illegalThenLegal = some .reservedBits ∧
    runWentWrong 2 illegalThenLegal = true := by decide

/-- A run with a cause, and one without that takes a command. -/
theorem witness_RunGoesWrongOnIllegalWords :
    runCause 2 illegalThenLegal = some .reservedBits ∧
    (runWentWrong 1 (about 0x600000000000) = false ∧ 0 < 1 ∧
      (about 0x600000000000).inputs[(about 0x600000000000).pc + 0]? = some (.command 0x600000000000)) := by decide

end Sys2Proof.Tests
end

/-! The scope of the block (00_scope.md): what a step always answers, and the statements O52, O53 and O9. -/

namespace Sys2Proof.Machine

/-- A command leaves the input list and the place in it alone (R18), and it always responds (R9). -/
theorem exec_frame {i : Instr} {s t : State} (h : exec i s = .next t) :
    t.inputs = s.inputs ∧ t.pc = s.pc ∧ t.rspValid = true := by
  obtain ⟨r, c, q, hq⟩ := exec_next i s
  obtain rfl := Host.Outcome.next.inj (hq.symm.trans h)
  exact ⟨rfl, rfl, rfl⟩

/-- No step faults or is refused (R85, R90). -/
theorem step_next (s : State) : ∃ t, step s = .next t := by
  cases hx : fetch s with
  | none => exact ⟨_, step_idle hx⟩
  | some x =>
    cases x with
    | reset _ => exact ⟨_, step_reset hx⟩
    | command w =>
      cases hd : decode w with
      | error c => exact ⟨_, step_illegal hx hd⟩
      | ok i =>
        obtain ⟨r, c, q, hq⟩ := exec_next i s
        exact ⟨_, by rw [step_command hx hd, hq, advanced]⟩

/-- No step writes the input list, which is the host's. -/
theorem step_inputs {s t : State} (h : step s = .next t) : t.inputs = s.inputs := by
  obtain ⟨-, rfl⟩ | ⟨x, -, rfl⟩ | ⟨w, c, -, -, rfl⟩ | ⟨w, i, u, -, -, hu, rfl⟩ := step_cases h
  · rfl
  · simp
  · simp
  · simp [exec_frame hu]

/-- A step that takes an input moves the place on by one (R18). -/
theorem step_pc {s t : State} (h : step s = .next t) (hlt : s.pc < s.inputs.length) : t.pc = s.pc + 1 := by
  obtain ⟨hx, -⟩ | ⟨x, -, rfl⟩ | ⟨w, c, -, -, rfl⟩ | ⟨w, i, u, -, -, hu, rfl⟩ := step_cases h
  · exact absurd (List.getElem?_eq_none_iff.1 hx) (Nat.not_le.2 hlt)
  · simp
  · simp
  · simp [exec_frame hu]

/-- A response is presented after every command word, legal or not (R5, R90). -/
theorem step_rspValid {s t : State} {w : CmdWord} (h : step s = .next t) (hw : fetch s = some (.command w)) :
    t.rspValid = true := by
  obtain ⟨hx, -⟩ | ⟨x, hx, -⟩ | ⟨v, c, -, -, rfl⟩ | ⟨v, i, u, -, -, hu, rfl⟩ := step_cases h
  · simp [hw] at hx
  · simp [hw] at hx
  · rfl
  · obtain ⟨-, -, hrsp⟩ := exec_frame hu
    exact hrsp

/-- `advanced` moves the place of a next state on by one, written as a record update (R18). -/
theorem advanced_next (t : State) : advanced (.next t) = .next { t with pc := t.pc + 1 } := rfl

/-- A `LUT` with a legal word names a level the ROM has (R52). -/
theorem levelOf_of_wellFormed {level : BitVec 3} {index : RomIndex} (h : (Instr.lut level index).wellFormed = true) :
    ∃ l, levelOf level = some l := by
  have hne : level ≠ 7 := by simpa [Instr.wellFormed] using h
  exact Option.ne_none_iff_exists'.1 (mt (levelOf_eq_none level).1 hne)

end Sys2Proof.Machine

namespace Sys2Proof.Safety

open Sys2Proof.Machine

@[simp] theorem answeredErr_respond_done (s : State) : answeredErr (s.respond .done) = false := rfl

@[simp] theorem answeredErr_respond_data (s : State) (v : Color) : answeredErr (s.respond (.data v)) = false := rfl

end Sys2Proof.Safety

namespace Sys2Proof.Proofs

open Sys2Proof.Machine Sys2Proof.Safety

/-- Settles O52, by the meaning of each command; only `LUT` uses that it is well-formed, and then its level is one of the
ROM's. -/
theorem legalCommandsComplete : Obligations.LegalCommandsComplete := by
  intro i s hwf
  cases i with
  | nop => exact ⟨_, exec_nop s, answeredErr_respond_done _⟩
  | shadeStd p => exact ⟨_, exec_shadeStd s p, answeredErr_respond_data _ _⟩
  | shadeSpc p => exact ⟨_, exec_shadeSpc s p, answeredErr_respond_data _ _⟩
  | clrst => exact ⟨_, exec_clrst s, answeredErr_respond_done _⟩
  | cfg d e => exact ⟨_, exec_cfg s d e, answeredErr_respond_done _⟩
  | lut level index =>
    obtain ⟨l, hl⟩ := levelOf_of_wellFormed hwf
    exact ⟨_, exec_lut_level s hl index, answeredErr_respond_data _ _⟩

/-- Settles O53, from what every step answers and leaves unchanged. -/
theorem everyStepCompletes : Obligations.EveryStepCompletes := by
  intro s
  obtain ⟨t, ht⟩ := step_next s
  exact ⟨t, ht, step_inputs ht, step_pc ht, fun _ hw => step_rspValid ht hw⟩

/-- Settles O9: the command answers a next state, which the step moves on. -/
theorem stepRunsDecodedCommand : Obligations.StepRunsDecodedCommand := by
  intro s w i hw hi _
  obtain ⟨r, c, q, hq⟩ := exec_next i s
  rw [step_command hw hi, hq]
  exact advanced_next _

end Sys2Proof.Proofs

/-! The state of the block (10_state.md): who writes the registers and the options, the ranges of R23, and copies of the
block. The statements O14, O44 to O51 and O55. -/

namespace Sys2Proof

/-- The must-be-zero bits of format P are 0 in every word of the encoder (R49). -/
theorem mbzP_encodePixel (op : BitVec 3) (p : Pixel) : mbzP (encodePixel op p) = 0 := by
  simp only [mbzP, encodePixel, slice_or]
  simp (disch := omega) only [slice_place_apart, BitVec.or_zero]
  rfl

/-- The fields of a word of format P are the operands it was made from (R49). -/
theorem pixelOf_encodePixel (op : BitVec 3) (p : Pixel) : pixelOf (encodePixel op p) = p := by
  simp only [pixelOf, encodePixel, slice_or, BitVec.getLsbD_or]
  simp (disch := omega) only [slice_place_apart, slice_place_same, getLsbD_place, BitVec.or_zero, BitVec.zero_or]
  simp

/-- The `SHADE.SPC` case of the round trip (R49, R53). -/
theorem decode_encode_shadeSpc (p : Pixel) : decode (encode (.shadeSpc p)) = .ok (.shadeSpc p) := by
  have hw : encode (.shadeSpc p) = encodePixel 2 p := rfl
  simp [decode, hw, opField_encodePixel, mbzP_encodePixel, pixelOf_encodePixel]

end Sys2Proof

namespace Sys2Proof.Machine

open Sys2Proof.Reference Sys2Proof.Safety

section SpectralRegisters
variable (p : Pixel) (c : CfgReg) (r : ShaderState)

/-- The registers a `SHADE.SPC` leaves are those of step 4 (R69, R70). -/
theorem spectralPass_regs_eq_decayStep :
    (spectralPass p c r).regs = (decayStep p (phaseStep p (spriteStep p (edgeStep p (passStart p c r))))).regs :=
  (levelStep_frame p c _).1

/-- The edge columns of step 1 are those of the closed form. -/
theorem onEdge_iff_edgeColumn : onEdge p = true ↔ edgeColumn p := by
  rw [onEdge_iff]
  simp only [edgeColumn, Nat.lt_succ_iff]

/-- `spShadow` as step 4 finds it fits its four bits. -/
theorem spRaised_lt : spRaised p r < 16 := by
  unfold spRaised
  split <;> omega

/-- Step 2 puts the closed form's value into `spShadow`, and writes nothing else (R66). -/
theorem spriteStep_eq (a : Pass) :
    spriteStep p a = ⟨{ a.regs with spShadow := BitVec.ofNat 4 (spRaised p a.regs) }, a.loc⟩ := by
  obtain ⟨hd, ha⟩ | ⟨hd, ha⟩ := spriteStep_cases p a
  · rw [ha, spRaised, if_pos hd, bump]
  · rw [ha, spRaised, hd]; simp

/-- What step 3 finds in an edge column (R65, R66). -/
theorem spriteStep_edgeStep_of_edgeColumn (h : edgeColumn p) :
    spriteStep p (edgeStep p (passStart p c r)) =
      ⟨⟨BitVec.ofNat 4 (spRaised p r), 0, p.bgColor, if p.bgIndex ≠ 0 then 7 else 14⟩,
        { (passStart p c r).loc with mute := true }⟩ := by
  obtain ⟨-, ha⟩ | ⟨he, -⟩ := edgeStep_cases p (passStart p c r)
  · rw [spriteStep_eq, ha]; rfl
  · simp [(onEdge_iff_edgeColumn p).2 h] at he

/-- What step 3 finds outside the edge columns (R65, R66). -/
theorem spriteStep_edgeStep_of_not_edgeColumn (h : ¬edgeColumn p) :
    spriteStep p (edgeStep p (passStart p c r)) =
      ⟨{ r with spShadow := BitVec.ofNat 4 (spRaised p r) }, (passStart p c r).loc⟩ := by
  obtain ⟨he, -⟩ | ⟨-, ha⟩ := edgeStep_cases p (passStart p c r)
  · exact absurd ((onEdge_iff_edgeColumn p).1 he) h
  · rw [spriteStep_eq, ha]; rfl

/-- `spShadow` after the command (R66, R68). -/
theorem spectralPass_spShadow : (spectralPass p c r).regs.spShadow.toNat = spRaised p r - 2 := by
  obtain ⟨hdecay, -⟩ := decayStep_spec p (phaseStep p (spriteStep p (edgeStep p (passStart p c r))))
  have hsp : (spriteStep p (edgeStep p (passStart p c r))).regs.spShadow.toNat = spRaised p r := by
    by_cases h : edgeColumn p
    · simp [spriteStep_edgeStep_of_edgeColumn p c r h, Nat.mod_eq_of_lt (spRaised_lt p r)]
    · simp [spriteStep_edgeStep_of_not_edgeColumn p c r h, Nat.mod_eq_of_lt (spRaised_lt p r)]
  rw [spectralPass_regs_eq_decayStep, hdecay, phaseStep, (trackPhase_frame p _ _).1, hsp]

/-- `bgShadow` after the command (R65, R67, R68). -/
theorem spectralPass_bgShadow : (spectralPass p c r).regs.bgShadow.toNat = bgRaised p r - 1 := by
  obtain ⟨-, hdecay, -⟩ := decayStep_spec p (phaseStep p (spriteStep p (edgeStep p (passStart p c r))))
  rw [spectralPass_regs_eq_decayStep, hdecay, phaseStep, trackPhase_bgShadow, bgRaised]
  by_cases h : edgeColumn p
  · simp [spriteStep_edgeStep_of_edgeColumn p c r h, h]
  · rw [spriteStep_edgeStep_of_not_edgeColumn p c r h]
    simp [h, passStart]

/-- `phase` after the command (R65, R67). -/
theorem spectralPass_phase : (spectralPass p c r).regs.phase.toNat = phaseNext p r := by
  obtain ⟨-, -, -, hdecay, -⟩ := decayStep_spec p (phaseStep p (spriteStep p (edgeStep p (passStart p c r))))
  rw [spectralPass_regs_eq_decayStep, hdecay, phaseStep, trackPhase_phase, phaseNext]
  by_cases h : edgeColumn p
  · rw [spriteStep_edgeStep_of_edgeColumn p c r h]
    by_cases hi : p.bgIndex = 0
    · simp [h, hi]
    · simp only [h, hi, ne_eq, not_false_eq_true, if_true, if_false]; rfl
  · rw [spriteStep_edgeStep_of_not_edgeColumn p c r h]
    simp [h, passStart]

/-- `lastColor` after the command (R14). -/
theorem spectralPass_lastColor : (spectralPass p c r).regs.lastColor = p.bgColor := by
  obtain ⟨-, -, hdecay, -⟩ := decayStep_spec p (phaseStep p (spriteStep p (edgeStep p (passStart p c r))))
  rw [spectralPass_regs_eq_decayStep, hdecay, phaseStep, (trackPhase_frame p _ _).2]

/-- A `SHADE.SPC` leaves the registers of the closed form, whatever the options (R72). -/
theorem spectralPass_regs : (spectralPass p c r).regs = shaderNext p r := by
  rw [shaderNext, ← spectralPass_spShadow p c r, ← spectralPass_bgShadow p c r, ← spectralPass_phase p c r,
    ← spectralPass_lastColor p c r]
  simp only [BitVec.ofNat_toNat, BitVec.setWidth_eq]

end SpectralRegisters

/-- What a command writes (R11, R16, R17): `SHADE.SPC` and `CLRST` the registers, `CFG` the options, any other neither. -/
theorem exec_writes {i : Instr} {s t : State} (h : exec i s = .next t) :
    (t.shader = s.shader ∧ t.cfg = s.cfg) ∨
    (∃ p, i = .shadeSpc p ∧ t.shader = shaderNext p s.shader ∧ t.cfg = s.cfg) ∨
    (i = .clrst ∧ t.shader = ⟨0, 0, 0, 0⟩ ∧ t.cfg = s.cfg) ∨
    (∃ d e, i = .cfg d e ∧ t.shader = s.shader) := by
  cases i with
  | nop => rw [exec_nop] at h; cases h; exact .inl ⟨rfl, rfl⟩
  | shadeStd p => rw [exec_shadeStd] at h; cases h; exact .inl ⟨rfl, rfl⟩
  | shadeSpc p => rw [exec_shadeSpc] at h; cases h; exact .inr (.inl ⟨p, rfl, spectralPass_regs p _ _, rfl⟩)
  | clrst => rw [exec_clrst] at h; cases h; exact .inr (.inr (.inl ⟨rfl, rfl, rfl⟩))
  | cfg d e => rw [exec_cfg] at h; cases h; exact .inr (.inr (.inr ⟨d, e, rfl, rfl⟩))
  | lut level index =>
    cases hl : levelOf level with
    | some l => rw [exec_lut_level s hl] at h; cases h; exact .inl ⟨rfl, rfl⟩
    | none => rw [(levelOf_eq_none level).1 hl, exec_lut_seven] at h; cases h; exact .inl ⟨rfl, rfl⟩

/-- A command that changes the options is `CFG` (R17). -/
theorem eq_cfg_of_cfg_ne {i : Instr} {s t : State} (h : exec i s = .next t) (hne : t.cfg ≠ s.cfg) :
    ∃ d e, i = .cfg d e := by
  obtain ⟨-, hsame⟩ | ⟨-, -, -, hsame⟩ | ⟨-, -, hsame⟩ | ⟨d, e, hi, -⟩ := exec_writes h
  · exact absurd hsame hne
  · exact absurd hsame hne
  · exact absurd hsame hne
  · exact ⟨d, e, hi⟩

/-- What `LUT` answers does not depend on the state: the ROM is no part of it (R35, R39). -/
theorem responseOf_lut_eq (level : BitVec 3) (index : RomIndex) (s t : State) :
    responseOf (exec (.lut level index) s) = responseOf (exec (.lut level index) t) := by
  cases hl : levelOf level with
  | some l => rw [exec_lut_level s hl, exec_lut_level t hl]; rfl
  | none => rw [(levelOf_eq_none level).1 hl, exec_lut_seven, exec_lut_seven]; rfl

/-- What a step can do to the registers (R11, R16): nothing, clear them, or run one `SHADE.SPC` on them. -/
theorem step_shader_cases {s t : State} (h : step s = .next t) :
    t.shader = s.shader ∨
    (t.shader = ⟨0, 0, 0, 0⟩ ∧
      ((∃ x, fetch s = some (.reset x)) ∨ ∃ w, fetch s = some (.command w) ∧ decode w = .ok .clrst)) ∨
    ∃ w p, fetch s = some (.command w) ∧ decode w = .ok (.shadeSpc p) ∧ t.shader = shaderNext p s.shader := by
  obtain ⟨-, rfl⟩ | ⟨x, hx, rfl⟩ | ⟨w, c, -, -, rfl⟩ | ⟨w, i, u, hw, hi, hu, rfl⟩ := step_cases h
  · exact .inl rfl
  · exact .inr (.inl ⟨rfl, .inl ⟨x, hx⟩⟩)
  · exact .inl rfl
  · obtain ⟨hsame, -⟩ | ⟨p, rfl, hnext, -⟩ | ⟨rfl, hzero, -⟩ | ⟨d, e, -, hsame⟩ := exec_writes hu
    · exact .inl hsame
    · exact .inr (.inr ⟨w, p, hw, hi, hnext⟩)
    · exact .inr (.inl ⟨hzero, .inr ⟨w, hw, hi⟩⟩)
    · exact .inl hsame

/-- A step on the command of a pixel leaves the registers of the closed form and moves on. -/
theorem step_shadeSpc {s : State} {p : Pixel} (hw : fetch s = some (.command (encode (.shadeSpc p)))) :
    ∃ t, step s = .next t ∧ t.shader = shaderNext p s.shader ∧ t.inputs = s.inputs ∧ t.pc = s.pc + 1 := by
  have hstep := step_command hw (decode_encode_shadeSpc p)
  rw [exec_shadeSpc, spectralPass_regs] at hstep
  exact ⟨_, hstep, rfl, rfl, rfl⟩

/-- A property of the registers that holds of the cleared ones and that `SHADE.SPC` keeps is kept by every step. -/
theorem step_keeps_of_shaderNext {P : ShaderState → Prop} (zero : P ⟨0, 0, 0, 0⟩)
    (keep : ∀ p r, P r → P (shaderNext p r)) {s t : State} (h : step s = .next t) (hs : P s.shader) : P t.shader := by
  obtain hsame | ⟨hzero, -⟩ | ⟨w, p, -, -, hnext⟩ := step_shader_cases h
  · exact hsame ▸ hs
  · exact hzero ▸ zero
  · exact hnext ▸ keep p _ hs

/-- Bounds on the registers: `RegsWithin 9 3` are the documented ranges of R23, `RegsWithin 7 2` those seen between
commands; `phase` has the same bound in both. -/
def RegsWithin (sp bg : Nat) (r : ShaderState) : Prop :=
  r.spShadow.toNat ≤ sp ∧ r.bgShadow.toNat ≤ bg ∧ r.phase.toNat ≤ 14

theorem inRange_iff (s : State) : InRange s ↔ RegsWithin 9 3 s.shader := Iff.rfl

theorem atBoundary_iff (s : State) : AtBoundary s ↔ RegsWithin 7 2 s.shader := Iff.rfl

/-- The cleared registers are within any bounds. -/
theorem regsWithin_zero (sp bg : Nat) : RegsWithin sp bg ⟨0, 0, 0, 0⟩ := by simp [RegsWithin]

/-- The tighter ranges lie in the documented ones. -/
theorem RegsWithin.widen {r : ShaderState} (h : RegsWithin 7 2 r) : RegsWithin 9 3 r := by
  obtain ⟨hsp, hbg, hphase⟩ := h
  exact ⟨by omega, by omega, hphase⟩

section ClosedForm
variable (p : Pixel) (r : ShaderState)

/-- The closed form's `spShadow` as a number. -/
theorem shaderNext_spShadow : (shaderNext p r).spShadow.toNat = spRaised p r - 2 := by
  rw [← spectralPass_regs p ⟨false, false⟩ r, spectralPass_spShadow]

/-- The closed form's `bgShadow` as a number. -/
theorem shaderNext_bgShadow : (shaderNext p r).bgShadow.toNat = bgRaised p r - 1 := by
  rw [← spectralPass_regs p ⟨false, false⟩ r, spectralPass_bgShadow]

/-- The closed form's `phase` as a number. -/
theorem shaderNext_phase : (shaderNext p r).phase.toNat = phaseNext p r := by
  rw [← spectralPass_regs p ⟨false, false⟩ r, spectralPass_phase]

/-- The sprite increment saturates at 9, so step 4 finds at most 9 (R66). -/
theorem spRaised_le (h : r.spShadow.toNat ≤ 9) : spRaised p r ≤ 9 := by
  unfold spRaised
  split
  · exact Nat.min_le_left 9 _
  · exact h

/-- A background shadow starts at 3, so step 4 finds at most 3 (R67). -/
theorem bgRaised_le (h : r.bgShadow.toNat ≤ 3) : bgRaised p r ≤ 3 := by
  unfold bgRaised
  split
  · exact Nat.zero_le 3
  · split
    · exact Nat.le_refl 3
    · exact h

/-- `phase` is set to at most 14 or counts down (R67). -/
theorem phaseNext_le (h : r.phase.toNat ≤ 14) : phaseNext p r ≤ 14 := by
  unfold phaseNext
  split_ifs <;> omega

/-- The decay of step 4 closes the gap between the two ranges (R23, R68). -/
theorem regsWithin_shaderNext (h : RegsWithin 9 3 r) : RegsWithin 7 2 (shaderNext p r) := by
  obtain ⟨hsp, hbg, hphase⟩ := h
  refine ⟨?_, ?_, ?_⟩
  · rw [shaderNext_spShadow]; exact Nat.sub_le_sub_right (spRaised_le p r hsp) 2
  · rw [shaderNext_bgShadow]; exact Nat.sub_le_sub_right (bgRaised_le p r hbg) 1
  · rw [shaderNext_phase]; exact phaseNext_le p r hphase

end ClosedForm

/-- With copy `k` stepping to `t`, `stepInstance` puts `t` in its place; where there is no copy `k`, nothing happens. -/
theorem stepInstance_eq_set {k : Nat} {copies : List State} {t : State}
    (h : ∀ s, copies[k]? = some s → step s = .next t) : stepInstance k copies = .next (copies.set k t) := by
  cases hk : copies[k]? with
  | none => simp [stepInstance, hk, List.set_eq_of_length_le (List.getElem?_eq_none_iff.1 hk)]
  | some s => simp [stepInstance, hk, h s hk]

/-- Every copy has a step to take, and so has a place without a copy, vacuously. -/
theorem exists_step_of_copy (k : Nat) (copies : List State) : ∃ t, ∀ s, copies[k]? = some s → step s = .next t := by
  cases copies[k]? with
  | none => exact ⟨State.reset, by simp⟩
  | some s =>
    obtain ⟨t, ht⟩ := step_next s
    exact ⟨t, by simpa using ht⟩

end Sys2Proof.Machine

namespace Sys2Proof.Proofs

open Sys2Proof.Machine Sys2Proof.Safety Sys2Proof.Reference

/-- The host's inputs that issue a `SHADE.SPC` for each pixel in turn. -/
def spectralInputs (ps : List Pixel) : List HostInput := ps.map fun p => .command (encode (.shadeSpc p))

/-- The registers after a `SHADE.SPC` for each pixel in turn. -/
def shaderAfter (ps : List Pixel) (r : ShaderState) : ShaderState := ps.foldl (fun r p => shaderNext p r) r

/-- A block whose next inputs are the pixels' commands runs them, one a step. -/
theorem run_spectralInputs (ps : List Pixel) {s : State} (h : s.inputs.drop s.pc = spectralInputs ps) :
    ∃ t, Sys2Proof.core.run ps.length s = .next t ∧ t.shader = shaderAfter ps s.shader := by
  induction ps generalizing s with
  | nil => exact ⟨s, rfl, rfl⟩
  | cons p ps ih =>
    have hw : fetch s = some (.command (encode (.shadeSpc p))) := by
      rw [fetch, ← List.head?_drop, h]; rfl
    obtain ⟨u, hstep, hshader, hinputs, hpc⟩ := step_shadeSpc hw
    have hrest : u.inputs.drop u.pc = spectralInputs ps := by
      rw [hinputs, hpc, ← List.tail_drop, h]; rfl
    obtain ⟨t, hrun, ht⟩ := ih hrest
    exact ⟨t, (run_succ Sys2Proof.core hstep _).trans hrun, by rw [ht, hshader]; rfl⟩

/-- Registers that a list of pixels leads to from the cleared ones are reached from reset. -/
theorem reached_of_shaderAfter (good : ShaderState → Prop) (ps : List Pixel) (h : good (shaderAfter ps ⟨0, 0, 0, 0⟩)) :
    ∃ (inputs : List HostInput) (k : Nat) (t : State),
      Sys2Proof.core.run k { State.reset with inputs := inputs } = .next t ∧ good t.shader := by
  obtain ⟨t, hrun, ht⟩ := run_spectralInputs (s := { State.reset with inputs := spectralInputs ps }) ps rfl
  exact ⟨_, _, t, hrun, ht ▸ h⟩

/-- A pixel outside the edge columns. -/
def innerPixel (bgIndex : BitVec 2) (bgColor : Color) (decision : Bool) : Pixel :=
  ⟨0, 0, 10, 0, bgIndex, bgColor, 0, 0, decision, true⟩

/-- Sprite pixels take `spShadow` to 6 or 7, and background pixels take two off each. -/
def spShadowPixels (n : Nat) : List Pixel :=
  List.replicate (2 + n % 2) (innerPixel 0 0 true) ++ List.replicate ((7 - n) / 2) (innerPixel 0 0 false)

/-- A change to a bright universal background sets `bgShadow`, which ends at 2, and each pixel of the same colour takes one
off. -/
def bgShadowPixels (n : Nat) : List Pixel := List.replicate (3 - n) (innerPixel 0 0x20 false)

/-- A change of colour sets `phase` to 14, and each pixel of the same colour takes one off. -/
def phasePixels (n : Nat) : List Pixel := List.replicate (15 - n) (innerPixel 1 0x20 false)

/-- Settles O44: the cleared registers are in the documented ranges, and a `SHADE.SPC` leaves even the tighter ones. -/
theorem stepKeepsDocumentedRanges : Obligations.StepKeepsDocumentedRanges := by
  intro s t hs h
  rw [inRange_iff] at hs ⊢
  exact step_keeps_of_shaderNext (regsWithin_zero 9 3) (fun p r hr => (regsWithin_shaderNext p r hr).widen) h hs

/-- Settles O45: the cleared registers are in the tighter ranges, and a `SHADE.SPC` leaves them, as the tighter ranges lie in
the documented ones. -/
theorem stepKeepsBoundaryRanges : Obligations.StepKeepsBoundaryRanges := by
  intro s t hs h
  rw [atBoundary_iff] at hs ⊢
  exact step_keeps_of_shaderNext (regsWithin_zero 7 2) (fun p r hr => regsWithin_shaderNext p r hr.widen) h hs

/-- Settles O47: the registers of the closed form are in the tighter ranges. -/
theorem spectralEntersBoundaryRanges : Obligations.SpectralEntersBoundaryRanges := by
  intro p s t hs h
  rw [inRange_iff] at hs
  rw [exec_shadeSpc] at h
  cases h
  rw [atBoundary_iff, respond_shader, setShader_shader, spectralPass_regs]
  exact regsWithin_shaderNext p _ hs

/-- Settles O48: from reset, short runs of `SHADE.SPC` reach each value; that they do is evaluated with the closed form. -/
theorem everyBoundaryValueOccurs : Obligations.EveryBoundaryValueOccurs := by
  have hsp : ∀ n ≤ 7, (shaderAfter (spShadowPixels n) ⟨0, 0, 0, 0⟩).spShadow.toNat = n := by decide
  have hbg : ∀ n ≤ 2, (shaderAfter (bgShadowPixels n) ⟨0, 0, 0, 0⟩).bgShadow.toNat = n := by decide
  have hphase : ∀ n ≤ 14, (shaderAfter (phasePixels n) ⟨0, 0, 0, 0⟩).phase.toNat = n := by decide
  refine ⟨fun n hn => ?_, fun n hn => ?_, fun n hn => ?_, fun c => ?_⟩
  · exact reached_of_shaderAfter (·.spShadow.toNat = n) _ (hsp n hn)
  · exact reached_of_shaderAfter (·.bgShadow.toNat = n) _ (hbg n hn)
  · exact reached_of_shaderAfter (·.phase.toNat = n) _ (hphase n hn)
  · exact reached_of_shaderAfter (·.lastColor = c) [innerPixel 0 c false] rfl

/-- Settles O49, from what a command can do to each part of the state. -/
theorem commandFrames : Obligations.CommandFrames := by
  intro i s t h
  obtain ⟨hinputs, hpc, -⟩ := exec_frame h
  refine ⟨hinputs, hpc, fun hne => ?_, fun hne => ?_, fun level index => responseOf_lut_eq level index t s⟩
  · obtain ⟨hsame, -⟩ | ⟨p, hi, -⟩ | ⟨hi, -⟩ | ⟨d, e, -, hsame⟩ := exec_writes h
    · exact absurd hsame hne
    · exact .inl ⟨p, hi⟩
    · exact .inr hi
    · exact absurd hsame hne
  · exact eq_cfg_of_cfg_ne h hne

/-- Settles O50, from what a step can do to the registers. -/
theorem onlyTheseWriteTheRegisters : Obligations.OnlyTheseWriteTheRegisters := by
  intro s t h hne
  obtain hsame | ⟨-, hreset | ⟨w, hw, hi⟩⟩ | ⟨w, p, hw, hi, -⟩ := step_shader_cases h
  · exact absurd hsame hne
  · exact .inl hreset
  · exact .inr ⟨w, hw, .inr hi⟩
  · exact .inr ⟨w, hw, .inl ⟨p, hi⟩⟩

/-- Settles O51: of the four things a step can do, only `RESET` and a `CFG` change the options. -/
theorem onlyTheseWriteTheOptions : Obligations.OnlyTheseWriteTheOptions := by
  intro s t h hne
  obtain ⟨-, rfl⟩ | ⟨x, hx, -⟩ | ⟨w, c, -, -, rfl⟩ | ⟨w, i, u, hw, hi, hu, rfl⟩ := step_cases h
  · exact absurd rfl hne
  · exact .inl ⟨x, hx⟩
  · exact absurd rfl hne
  · obtain ⟨d, e, rfl⟩ := eq_cfg_of_cfg_ne hu hne
    exact .inr ⟨w, d, e, hw, hi⟩

/-- Settles O55: each step replaces one element of the list, and replacements at two places commute. -/
theorem instancesDoNotInteract : Obligations.InstancesDoNotInteract := by
  intro j k copies hjk
  obtain ⟨tj, hj⟩ := exists_step_of_copy j copies
  obtain ⟨tk, hk⟩ := exists_step_of_copy k copies
  have keepsK : (copies.set j tj)[k]? = copies[k]? := List.getElem?_set_ne hjk
  have keepsJ : (copies.set k tk)[j]? = copies[j]? := List.getElem?_set_ne hjk.symm
  refine ⟨_, _, (copies.set k tk).set j tj, stepInstance_eq_set hj, stepInstance_eq_set hk, keepsK, keepsJ, ?_,
    stepInstance_eq_set (by rwa [keepsJ]), fun s hs => ⟨tj, hj s hs, ?_⟩⟩
  · rw [List.set_comm _ _ hjk.symm]
    exact stepInstance_eq_set (by rwa [keepsK])
  · obtain ⟨hlt, -⟩ := List.getElem?_eq_some_iff.1 hs
    exact List.getElem?_set_self (by rwa [List.length_set])

/-- Settles O14: the registers by their reset values, the ROM by the comparison with the listing of R33. -/
theorem stateAfterReset : Obligations.StateAfterReset := ⟨rfl, rfl, rfl, romRead_eq_romImage⟩

/-- Settles O46: the reset registers are the cleared ones. -/
theorem rangesHoldAtReset : Obligations.RangesHoldAtReset := ⟨regsWithin_zero 9 3, regsWithin_zero 7 2⟩

end Sys2Proof.Proofs

/-! The ROM (20_memory.md): the two loops of the build algorithm in closed form, and the flat addresses. The statements O19
to O22. -/

namespace Sys2Proof

/-- A field that fits into the word is placed by multiplication (R48). -/
theorem place_toNat {n : Nat} (v : BitVec n) (at_ : Nat) (h : n + at_ ≤ 48) : (place v at_).toNat = 2 ^ at_ * v.toNat := by
  have hv : v.toNat < 2 ^ n := v.isLt
  have hfits : 2 ^ at_ * v.toNat < 2 ^ 48 := calc
    2 ^ at_ * v.toNat < 2 ^ at_ * 2 ^ n := Nat.mul_lt_mul_of_pos_left hv (Nat.two_pow_pos at_)
    _ = 2 ^ (n + at_) := by rw [Nat.add_comm, Nat.pow_add]
    _ ≤ 2 ^ 48 := Nat.pow_le_pow_right (by omega) h
  have hsmall : v.toNat < 2 ^ 48 := hv.trans_le (Nat.pow_le_pow_right (by omega) (by omega))
  rw [place, BitVec.toNat_shiftLeft, BitVec.toNat_setWidth, Nat.mod_eq_of_lt hsmall, Nat.shiftLeft_eq, Nat.mul_comm,
    Nat.mod_eq_of_lt hfits]

/-- The word of a `LUT` as a sum of its fields (R52). -/
theorem encode_lut_toNat (level : BitVec 3) (index : RomIndex) :
    (encode (.lut level index)).toNat = 2 ^ 45 * 5 + (2 ^ 7 * level.toNat + index.toNat) := by
  have hindex : index.toNat < 2 ^ 7 := index.isLt
  have hlow : 2 ^ 7 * level.toNat + index.toNat < 2 ^ 45 := by omega
  rw [encode, BitVec.or_assoc, BitVec.toNat_or, BitVec.toNat_or, place_toNat _ _ (by omega), place_toNat _ _ (by omega),
    place_toNat _ _ (by omega), Nat.pow_zero, Nat.one_mul, ← Nat.two_pow_add_eq_or_of_lt hindex]
  exact (Nat.two_pow_add_eq_or_of_lt hlow 5).symm

end Sys2Proof

namespace Sys2Proof.Machine

open Sys2Proof.Reference

/-- Below the ceiling of its column, a colour climbs one row in the first step (R29, R32). -/
theorem climbedRow_succ {row col n : Nat} (hcol : col < 16) (h : 16 * row + col + Config.step < Config.brightCeil) :
    climbedRow row col (n + 1) = climbedRow (row + 1) col n := by
  simp only [Config.step, Config.brightCeil] at h
  simp only [climbedRow]
  split <;> omega

/-- At the ceiling of its column, or above it, a colour keeps its row (R29, R32). -/
theorem climbedRow_of_ceiling {row col n : Nat} (hcol : col < 16) (h : ¬16 * row + col + Config.step < Config.brightCeil) :
    climbedRow row col n = row := by
  simp only [Config.step, Config.brightCeil] at h
  simp only [climbedRow]
  split <;> omega

/-- The brighten loop in closed form (R29, R32): each pass raises the row by one, up to the ceiling of its column. -/
theorem brighten_eq (n i : Nat) : brighten n i = 16 * climbedRow (i / 16) (i % 16) n + i % 16 := by
  induction n generalizing i with
  | zero => simp only [brighten, climbedRow]; omega
  | succ n ih =>
    have hcol : i % 16 < 16 := Nat.mod_lt i (by decide)
    have hdiv : (i + Config.step) / 16 = i / 16 + 1 := Nat.add_div_right i (by decide)
    have hmod : (i + Config.step) % 16 = i % 16 := Nat.add_mod_right i 16
    have hi : 16 * (i / 16) + i % 16 = i := Nat.div_add_mod i 16
    rw [brighten]
    by_cases hclimb : i + Config.step < Config.brightCeil
    · rw [if_pos hclimb, ih, hdiv, hmod, climbedRow_succ hcol (by rwa [hi])]
    · rw [if_neg hclimb, ih, climbedRow_of_ceiling hcol (by rwa [hi]), climbedRow_of_ceiling hcol (by rwa [hi])]

/-- The darken loop in closed form (R30, R32): each pass lowers the row by one; from row 0 it keeps the bright entry and sets
the shadow entry to `BLACK`. -/
theorem darken_eq (n i : Nat) :
    darken n (i, i) = (16 * (i / 16 - n) + i % 16, if n ≤ i / 16 then 16 * (i / 16 - n) + i % 16 else Config.black) := by
  induction n generalizing i with
  | zero => simp only [darken, Nat.zero_le, if_true, Prod.mk.injEq]; omega
  | succ n ih =>
    rw [darken]
    by_cases hrow : Config.step ≤ i
    · have hdiv : (i - Config.step) / 16 = i / 16 - 1 := by simp only [Config.step]; omega
      have hmod : (i - Config.step) % 16 = i % 16 := by simp only [Config.step] at hrow ⊢; omega
      have hfloor : n ≤ i / 16 - 1 ↔ n + 1 ≤ i / 16 := by simp only [Config.step] at hrow; omega
      simp only [if_pos hrow, ih, hdiv, hmod, hfloor, Nat.sub_sub, Nat.add_comm 1 n]
    · have hzero : i / 16 = 0 := by simp only [Config.step] at hrow; omega
      simp only [if_neg hrow, hzero, Prod.mk.injEq]
      exact ⟨by omega, rfl⟩

/-- The build algorithm gives the closed form of R32: from level 3 on only the brighten loop runs, below it only the darken
loop. -/
theorem romPair_eq (level i : Nat) : romPair level i = (brightEntry level i, shadowEntry level i) := by
  by_cases h : 3 ≤ level
  · have hdark : Config.neutral - level = 0 := Nat.sub_eq_zero_of_le h
    simp only [romPair, hdark, darken, brighten_eq, shadowEntry, brightEntry, if_pos h]
  · have hbright : level - Config.neutral = 0 := Nat.sub_eq_zero_of_le (Nat.le_of_not_le h)
    simp only [romPair, hbright, brighten, darken_eq, shadowEntry, brightEntry, if_neg h]

@[simp] theorem brightIndex_toNat (c : Color) : (brightIndex c).toNat = c.toNat := by
  rw [brightIndex, BitVec.toNat_setWidth]
  omega

@[simp] theorem shadowIndex_toNat (c : Color) : (shadowIndex c).toNat = 64 + c.toNat := by
  have h64 : (64 : RomIndex).toNat = 64 := rfl
  rw [shadowIndex, BitVec.toNat_add, BitVec.toNat_setWidth, h64]
  omega

/-- The bright half of the ROM in closed form (R32). -/
theorem romRead_brightIndex (level : Level) (c : Color) :
    romRead level (brightIndex c) = BitVec.ofNat 6 (brightEntry level.val c.toNat) := by
  rw [romRead, brightIndex_toNat, if_pos c.isLt, romPair_eq]

/-- The shadow half of the ROM in closed form (R32). -/
theorem romRead_shadowIndex (level : Level) (c : Color) :
    romRead level (shadowIndex c) = BitVec.ofNat 6 (shadowEntry level.val c.toNat) := by
  rw [romRead, shadowIndex_toNat, if_neg (by omega), Nat.add_sub_cancel_left, romPair_eq]

/-- The bright entry of a colour is a colour (R34). -/
theorem brightEntry_lt {i : Nat} (level : Nat) (h : i < 64) : brightEntry level i < 64 := by
  by_cases hl : 3 ≤ level
  · simp only [brightEntry, climbedRow, if_pos hl]
    split <;> omega
  · simp only [brightEntry, if_neg hl]
    omega

/-- A shadow entry is the bright one, except where the darken loop met the floor and left `BLACK` (R30, R32). -/
theorem shadowEntry_cases (level i : Nat) :
    shadowEntry level i = brightEntry level i ∨ (level < 3 ∧ shadowEntry level i = Config.black) := by
  by_cases h : 3 ≤ level
  · exact .inl (if_pos h)
  · by_cases hrow : 3 - level ≤ i / 16
    · exact .inl (by simp only [shadowEntry, brightEntry, if_neg h, if_pos hrow])
    · exact .inr ⟨by omega, by simp only [shadowEntry, if_neg h, if_neg hrow]⟩

/-- The bright entry 0x3F is kept by colour 0x3F from level 3 on and reached by no other colour: column 15 climbs to row 2 only
(R32). -/
theorem brightEntry_eq_max_iff {level i : Nat} (h : i < 64) : brightEntry level i = 0x3F ↔ i = 0x3F ∧ 3 ≤ level := by
  by_cases hl : 3 ≤ level
  · simp only [brightEntry, climbedRow, if_pos hl]
    split <;> omega
  · simp only [brightEntry, if_neg hl]
    omega

/-- 0x3F stands in the shadow half where it stands in the bright one, since `BLACK` is another colour (R32). -/
theorem shadowEntry_eq_max_iff {level i : Nat} (h : i < 64) : shadowEntry level i = 0x3F ↔ i = 0x3F ∧ 3 ≤ level := by
  obtain hs | ⟨hl, hs⟩ := shadowEntry_cases level i
  · rw [hs, brightEntry_eq_max_iff h]
  · have hblack : Config.black ≠ 0x3F := by decide
    rw [hs]
    exact iff_of_false hblack (by omega)

/-- The shadow entry of a colour is a colour (R34). -/
theorem shadowEntry_lt {i : Nat} (level : Nat) (h : i < 64) : shadowEntry level i < 64 := by
  obtain hs | ⟨-, hs⟩ := shadowEntry_cases level i
  · rw [hs]; exact brightEntry_lt level h
  · rw [hs]; decide

/-- A number below 64 is 0x3F as a colour exactly when it is 0x3F. -/
theorem color_ofNat_eq_max_iff {n : Nat} (h : n < 64) : BitVec.ofNat 6 n = 0x3F ↔ n = 0x3F := by
  rw [← BitVec.toNat_inj, BitVec.toNat_ofNat, Nat.mod_eq_of_lt h]
  rfl

/-- 0x3F stands in the bright half at index 0x3F of levels 3 to 6 only (R32). -/
theorem romRead_brightIndex_eq_max_iff (level : Level) (c : Color) :
    romRead level (brightIndex c) = 0x3F ↔ c = 0x3F ∧ 3 ≤ level.val := by
  rw [romRead_brightIndex, color_ofNat_eq_max_iff (brightEntry_lt _ c.isLt), brightEntry_eq_max_iff c.isLt, ← BitVec.toNat_inj]
  rfl

/-- 0x3F stands in the shadow half at index 0x7F of levels 3 to 6 only (R32). -/
theorem romRead_shadowIndex_eq_max_iff (level : Level) (c : Color) :
    romRead level (shadowIndex c) = 0x3F ↔ c = 0x3F ∧ 3 ≤ level.val := by
  rw [romRead_shadowIndex, color_ofNat_eq_max_iff (shadowEntry_lt _ c.isLt), shadowEntry_eq_max_iff c.isLt, ← BitVec.toNat_inj]
  rfl

/-- The response of a `LUT` is the ROM's entry (R84). -/
theorem responseOf_lut (level : Level) (index : RomIndex) (s : State) :
    responseOf (exec (.lut (BitVec.ofNat 3 level.val) index) s) = some (.data (romRead level index)) := by
  rw [exec_lut_level s (levelOf_ofNat level)]
  rfl

/-- A flat address is a level and an index exactly when these are its quotient and its remainder (R26). -/
theorem flatAddress_eq_iff (level : Level) (index : RomIndex) (addr : Nat) :
    flatAddress level index = addr ↔ level.val = addr / 128 ∧ index.toNat = addr % 128 := by
  have hindex : index.toNat < 128 := index.isLt
  simp only [flatAddress]
  omega

/-- The entry at the flat address of a level and an index is the one a ROM read returns (R26, R40). -/
theorem romAt_flatAddress (level : Level) (index : RomIndex) :
    romAt (flatAddress level index) = some (romRead level index) := by
  obtain ⟨hlevel, hindex⟩ := (flatAddress_eq_iff level index _).1 rfl
  simp only [romAt, ← hlevel, ← hindex, level.isLt, dif_pos, BitVec.ofNat_toNat, BitVec.setWidth_eq]

/-- Nothing is populated from 0x380 on (R40). -/
theorem romAt_eq_none {addr : Nat} (h : 0x380 ≤ addr) : romAt addr = none :=
  dif_neg (by omega)

/-- Every flat address up to 0x37F is that of exactly one level and index (R26, R40). -/
theorem existsUnique_flatAddress {addr : Nat} (h : addr ≤ 0x37F) :
    ∃! at_ : Level × RomIndex, flatAddress at_.1 at_.2 = addr := by
  refine ⟨(⟨addr / 128, by omega⟩, BitVec.ofNat 7 (addr % 128)), ?_, fun ⟨level, index⟩ hat => ?_⟩
  · exact (flatAddress_eq_iff _ _ _).2 ⟨rfl, by rw [BitVec.toNat_ofNat]; omega⟩
  · obtain ⟨hlevel, hindex⟩ := (flatAddress_eq_iff level index addr).1 hat
    simp only [← hlevel, ← hindex, BitVec.ofNat_toNat, BitVec.setWidth_eq]

/-- Bits 9:0 of a `LUT` word are the flat address (R52). -/
theorem encode_lut_mod (level : Level) (index : RomIndex) :
    (encode (.lut (BitVec.ofNat 3 level.val) index)).toNat % 2 ^ 10 = flatAddress level index := by
  have hlevel : (BitVec.ofNat 3 level.val).toNat = level.val := Nat.mod_eq_of_lt (by omega)
  rw [encode_lut_toNat, hlevel, flatAddress]
  omega

end Sys2Proof.Machine

namespace Sys2Proof.Proofs

open Sys2Proof.Machine Sys2Proof.Reference

/-- Settles O19: `LUT` answers the ROM's entry, and the two halves of the ROM have their closed forms. -/
theorem lutClosedForm : Obligations.LutClosedForm := by
  intro level i s read
  have hbright : read (i.setWidth 7) = some (.data (romRead level (brightIndex i))) := responseOf_lut level _ s
  have hshadow : read (64 + i.setWidth 7) = some (.data (romRead level (shadowIndex i))) := responseOf_lut level _ s
  simp only [hbright, hshadow, Option.some.injEq, Response.data.injEq]
  exact ⟨romRead_brightIndex level i, romRead_shadowIndex level i, romRead_brightIndex_eq_max_iff level i,
    romRead_shadowIndex_eq_max_iff level i⟩

/-- Settles O20: no response of `LUT` depends on the state, and level 3 of the ROM is the identity in both halves. -/
theorem romGuarantees : Obligations.RomGuarantees := by
  intro s t
  refine ⟨fun level index => responseOf_lut_eq level index s t, fun i => ⟨?_, ?_⟩, rfl, rfl⟩
  · have hread : romRead 3 (i.setWidth 7) = i := romRead_neutral_bright i
    exact (responseOf_lut 3 _ s).trans (by rw [hread])
  · have hread : romRead 3 (64 + i.setWidth 7) = i := by
      rw [BitVec.add_comm]
      exact romRead_neutral_shadow i
    exact (responseOf_lut 3 _ s).trans (by rw [hread])

/-- Settles O21: a flat address has its level and index as quotient and remainder, which bits 9:0 of the `LUT` word hold. -/
theorem flatAddresses : Obligations.FlatAddresses := by
  refine ⟨fun level index => ⟨?_, ?_, encode_lut_mod level index⟩, fun addr h => existsUnique_flatAddress h,
    fun addr h => romAt_eq_none h⟩
  · simp only [flatAddress]
    omega
  · rw [romAt_flatAddress, romRead_eq_romImage]

/-- Settles O22: what `LUT` answers is the same from any two states, so also from those before and after a step. -/
theorem noInputChangesTheRom : Obligations.NoInputChangesTheRom :=
  fun s t level index _ => responseOf_lut_eq level index t s

end Sys2Proof.Proofs

/-! The encoding (30_encoding.md): the decoder's table as a relation, words as sums of their fields, the match and mask map, the
lines of the assembler, and the response ports with the colour of a `SHADE.SPC`. The statements O1 to O5, O7, O8 and O54. -/

namespace Sys2Proof

/-- The decoder's table (R53, R55), one constructor for each way a word decodes: the conditions on the word's fields, and what
the word is. The refusals stand as R55 groups them. -/
inductive DecodesTo (w : CmdWord) : Except Machine.Cause Instr → Prop
  | nop (hop : opField w = 0) (hmbz : mbzZ w = 0) : DecodesTo w (.ok .nop)
  | shadeStd (hop : opField w = 1) (hmbz : mbzP w = 0) : DecodesTo w (.ok (.shadeStd (pixelOf w)))
  | shadeSpc (hop : opField w = 2) (hmbz : mbzP w = 0) : DecodesTo w (.ok (.shadeSpc (pixelOf w)))
  | clrst (hop : opField w = 3) (hmbz : mbzZ w = 0) : DecodesTo w (.ok .clrst)
  | cfg (hop : opField w = 4) (hmbz : mbzC w = 0) : DecodesTo w (.ok (.cfg (w.getLsbD 1) (w.getLsbD 0)))
  | lut (hop : opField w = 5) (hmbz : mbzL w = 0) (hlevel : levelField w ≠ 7) :
      DecodesTo w (.ok (.lut (levelField w) (indexField w)))
  | reservedOpcode (hop : opField w = 6 ∨ opField w = 7) : DecodesTo w (.error .reservedOpcode)
  | reservedBitsZ (hop : opField w = 0 ∨ opField w = 3) (hmbz : mbzZ w ≠ 0) : DecodesTo w (.error .reservedBits)
  | reservedBitsP (hop : opField w = 1 ∨ opField w = 2) (hmbz : mbzP w ≠ 0) : DecodesTo w (.error .reservedBits)
  | reservedBitsC (hop : opField w = 4) (hmbz : mbzC w ≠ 0) : DecodesTo w (.error .reservedBits)
  | reservedBitsL (hop : opField w = 5) (hmbz : mbzL w ≠ 0) : DecodesTo w (.error .reservedBits)
  | romLevel (hop : opField w = 5) (hmbz : mbzL w = 0) (hlevel : levelField w = 7) : DecodesTo w (.error .romLevel)

/-- The six opcodes of R53 leave 6 and 7. -/
theorem reserved_of_not_assigned : ∀ op : BitVec 3,
    op ≠ 0 → op ≠ 1 → op ≠ 2 → op ≠ 3 → op ≠ 4 → op ≠ 5 → op = 6 ∨ op = 7 := by decide

/-- What the decoder answers is what its table says. -/
theorem decodesTo_decode (w : CmdWord) : DecodesTo w (decode w) := by
  unfold decode
  split_ifs with h0 hz h1 hp h2 hp h3 hz h4 hc h5 hl h7
  · exact .nop h0 hz
  · exact .reservedBitsZ (.inl h0) hz
  · exact .shadeStd h1 hp
  · exact .reservedBitsP (.inl h1) hp
  · exact .shadeSpc h2 hp
  · exact .reservedBitsP (.inr h2) hp
  · exact .clrst h3 hz
  · exact .reservedBitsZ (.inr h3) hz
  · exact .cfg h4 hc
  · exact .reservedBitsC h4 hc
  · exact .romLevel h5 hl h7
  · exact .lut h5 hl h7
  · exact .reservedBitsL h5 hl
  · exact .reservedOpcode (reserved_of_not_assigned _ h0 h1 h2 h3 h4 h5)

/-- The table has one row for a word: the decoder's. -/
theorem DecodesTo.decode_eq {w : CmdWord} {r : Except Machine.Cause Instr} (h : DecodesTo w r) : decode w = r := by
  cases h with
  | nop hop hmbz => simp [decode, hop, hmbz]
  | shadeStd hop hmbz => simp [decode, hop, hmbz]
  | shadeSpc hop hmbz => simp [decode, hop, hmbz]
  | clrst hop hmbz => simp [decode, hop, hmbz]
  | cfg hop hmbz => simp [decode, hop, hmbz]
  | lut hop hmbz hlevel => simpa [decode, hop, hmbz] using hlevel
  | reservedOpcode hop => obtain hop | hop := hop <;> simp [decode, hop]
  | reservedBitsZ hop hmbz => obtain hop | hop := hop <;> simpa [decode, hop] using hmbz
  | reservedBitsP hop hmbz => obtain hop | hop := hop <;> simpa [decode, hop] using hmbz
  | reservedBitsC hop hmbz => simpa [decode, hop] using hmbz
  | reservedBitsL hop hmbz =>
    simp only [decode, hop, if_neg hmbz]
    rfl
  | romLevel hop hmbz hlevel => simp [decode, hop, hmbz, hlevel]

/-- The decoder's table is the decoder. -/
theorem decode_eq_iff {w : CmdWord} {r : Except Machine.Cause Instr} : decode w = r ↔ DecodesTo w r :=
  ⟨fun h => h ▸ decodesTo_decode w, DecodesTo.decode_eq⟩

/-- The level and the index of a `LUT` do not reach the opcode bits (R52). -/
theorem opField_encode_lut (level : BitVec 3) (index : RomIndex) : opField (encode (.lut level index)) = 5 := by
  simp only [opField, encode, slice_or]
  simp (disch := omega) only [slice_place_apart, slice_place_same, BitVec.or_zero]

/-- The must-be-zero bits of format L are 0 in every word of the encoder (R52). -/
theorem mbzL_encode_lut (level : BitVec 3) (index : RomIndex) : mbzL (encode (.lut level index)) = 0 := by
  simp only [mbzL, encode, slice_or]
  simp (disch := omega) only [slice_place_apart, BitVec.or_zero]
  rfl

/-- The level field is the level the word was made from (R52). -/
theorem levelField_encode_lut (level : BitVec 3) (index : RomIndex) : levelField (encode (.lut level index)) = level := by
  simp only [levelField, encode, slice_or]
  simp (disch := omega) only [slice_place_apart, slice_place_same, BitVec.or_zero, BitVec.zero_or]

/-- The index field is the index the word was made from (R52). -/
theorem indexField_encode_lut (level : BitVec 3) (index : RomIndex) : indexField (encode (.lut level index)) = index := by
  simp only [indexField, encode, slice_or]
  simp (disch := omega) only [slice_place_apart, slice_place_same, BitVec.zero_or]

/-- The word of a well-formed command meets the conditions of its row. -/
theorem decodesTo_encode {i : Instr} (h : i.wellFormed = true) : DecodesTo (encode i) (.ok i) := by
  cases i with
  | nop => exact .nop rfl rfl
  | shadeStd p =>
    have hrow : DecodesTo (encodePixel 1 p) (.ok (.shadeStd (pixelOf (encodePixel 1 p)))) :=
      .shadeStd (opField_encodePixel 1 p) (mbzP_encodePixel 1 p)
    rwa [pixelOf_encodePixel] at hrow
  | shadeSpc p => exact decode_eq_iff.1 (decode_encode_shadeSpc p)
  | clrst => exact .clrst rfl rfl
  | cfg d t => exact decode_eq_iff.1 (by cases d <;> cases t <;> rfl)
  | lut level index =>
    have hne : level ≠ 7 := bne_iff_ne.1 h
    have hrow := DecodesTo.lut (opField_encode_lut level index) (mbzL_encode_lut level index)
      (by rwa [levelField_encode_lut])
    rwa [levelField_encode_lut, indexField_encode_lut] at hrow

/-- The bits from `at_` on are those from `at_ + n` on and the slice of `n` bits below these. -/
theorem ushiftRight_toNat_eq (w : CmdWord) (at_ n : Nat) :
    (w >>> at_).toNat = (w >>> (at_ + n)).toNat * 2 ^ n + (w.extractLsb' at_ n).toNat := by
  rw [slice_toNat, BitVec.toNat_ushiftRight, BitVec.toNat_ushiftRight, Nat.shiftRight_eq_div_pow, Nat.shiftRight_eq_div_pow,
    Nat.pow_add, ← Nat.div_div_eq_div_mul, Nat.div_add_mod']

/-- The opcode is what is left of the word above bit 44. -/
theorem ushiftRight_opcode_toNat (w : CmdWord) : (w >>> 45).toNat = (opField w).toNat := by
  rw [opField_toNat, BitVec.toNat_ushiftRight, Nat.shiftRight_eq_div_pow]

/-- A single bit is a slice. -/
theorem getLsbD_toNat (w : CmdWord) (i : Nat) : (w.getLsbD i).toNat = (w.extractLsb' i 1).toNat := by
  rw [slice_toNat, BitVec.getLsbD, Nat.toNat_testBit, Nat.pow_one]

/-- The ten operands of format P as one number, the first in the highest bits (R49). -/
def pixelNat (p : Pixel) : Nat :=
  p.scanLine.toNat * 2 ^ 33 + p.fineY.toNat * 2 ^ 30 + p.dot.toNat * 2 ^ 21 + p.fineX.toNat * 2 ^ 18 +
    p.bgIndex.toNat * 2 ^ 16 + p.bgColor.toNat * 2 ^ 10 + p.spIndex.toNat * 2 ^ 8 + p.spColor.toNat * 2 ^ 2 +
    p.decision.toNat * 2 + p.showLeft.toNat

section Formats
variable (w : CmdWord)

/-- A word is the number the fields of format Z make (R50). -/
theorem toNat_eq_formatZ : w.toNat = (opField w).toNat * 2 ^ 45 + (mbzZ w).toNat := by
  have hall : w.toNat = (w >>> 0).toNat := by rw [BitVec.ushiftRight_zero]
  rw [hall, ushiftRight_toNat_eq w 0 45, ushiftRight_opcode_toNat, mbzZ]

/-- A word is the number the fields of format P make (R49): its bits are cut off field by field, from bit 0 on. -/
theorem toNat_eq_formatP :
    w.toNat = (opField w).toNat * 2 ^ 45 + (mbzP w).toNat * 2 ^ 42 + pixelNat (pixelOf w) := by
  have cut := ushiftRight_toNat_eq w
  have hall : w.toNat = (w >>> 0).toNat := by rw [BitVec.ushiftRight_zero]
  simp only [mbzP, pixelOf, pixelNat, getLsbD_toNat]
  rw [hall, cut 0 1, cut 1 1, cut 2 6, cut 8 2, cut 10 6, cut 16 2, cut 18 3, cut 21 9, cut 30 3, cut 33 9, cut 42 3,
    ushiftRight_opcode_toNat]
  ring

/-- A word is the number the fields of format C make (R51). -/
theorem toNat_eq_formatC :
    w.toNat = (opField w).toNat * 2 ^ 45 + (mbzC w).toNat * 2 ^ 2 + (w.getLsbD 1).toNat * 2 + (w.getLsbD 0).toNat := by
  have cut := ushiftRight_toNat_eq w
  have hall : w.toNat = (w >>> 0).toNat := by rw [BitVec.ushiftRight_zero]
  simp only [mbzC, getLsbD_toNat]
  rw [hall, cut 0 1, cut 1 1, cut 2 43, ushiftRight_opcode_toNat]
  ring

/-- A word is the number the fields of format L make (R52). -/
theorem toNat_eq_formatL :
    w.toNat = (opField w).toNat * 2 ^ 45 + (mbzL w).toNat * 2 ^ 10 + (levelField w).toNat * 2 ^ 7 + (indexField w).toNat := by
  have cut := ushiftRight_toNat_eq w
  have hall : w.toNat = (w >>> 0).toNat := by rw [BitVec.ushiftRight_zero]
  simp only [mbzL, levelField, indexField]
  rw [hall, cut 0 7, cut 7 3, cut 10 35, ushiftRight_opcode_toNat]
  ring

end Formats

/-- The word of a pixel as a number (R49). -/
theorem encodePixel_toNat (op : BitVec 3) (p : Pixel) :
    (encodePixel op p).toNat = op.toNat * 2 ^ 45 + pixelNat p := by
  rw [toNat_eq_formatP, opField_encodePixel, mbzP_encodePixel, pixelOf_encodePixel]
  simp

/-- The word of a `CFG` as a number (R51). -/
theorem encode_cfg_toNat : ∀ d t : Bool, (encode (.cfg d t)).toNat = 4 * 2 ^ 45 + d.toNat * 2 + t.toNat := by decide

/-- A word of format P with its must-be-zero bits clear is made from its opcode and its operands (R49). -/
theorem encodePixel_pixelOf {w : CmdWord} {op : BitVec 3} (hop : opField w = op) (hmbz : mbzP w = 0) :
    encodePixel op (pixelOf w) = w := by
  apply BitVec.eq_of_toNat_eq
  rw [encodePixel_toNat, toNat_eq_formatP w, hop, hmbz]
  simp

/-- A word of format Z with its must-be-zero bits clear is its opcode (R50). -/
theorem place_eq_of_opField {w : CmdWord} {op : BitVec 3} (hop : opField w = op) (hmbz : mbzZ w = 0) : place op 45 = w := by
  apply BitVec.eq_of_toNat_eq
  rw [place_toNat _ _ (by omega), toNat_eq_formatZ w, hop, hmbz]
  simp [Nat.mul_comm]

/-- A word that decodes is the word of the command it decodes to. -/
theorem DecodesTo.wellFormed_and_encode_eq {w : CmdWord} {i : Instr} (h : DecodesTo w (.ok i)) :
    i.wellFormed = true ∧ encode i = w := by
  cases h with
  | nop hop hmbz => exact ⟨rfl, place_eq_of_opField hop hmbz⟩
  | shadeStd hop hmbz => exact ⟨rfl, encodePixel_pixelOf hop hmbz⟩
  | shadeSpc hop hmbz => exact ⟨rfl, encodePixel_pixelOf hop hmbz⟩
  | clrst hop hmbz => exact ⟨rfl, place_eq_of_opField hop hmbz⟩
  | cfg hop hmbz =>
    refine ⟨rfl, BitVec.eq_of_toNat_eq ?_⟩
    rw [encode_cfg_toNat, toNat_eq_formatC w, hop, hmbz]
    simp
  | lut hop hmbz hlevel =>
    refine ⟨bne_iff_ne.2 hlevel, BitVec.eq_of_toNat_eq ?_⟩
    have hop5 : (5 : BitVec 3).toNat = 5 := rfl
    have hmbz0 : (0 : BitVec 35).toNat = 0 := rfl
    rw [encode_lut_toNat, toNat_eq_formatL w, hop, hmbz, hop5, hmbz0]
    ring

section Causes
variable {w : CmdWord}

/-- Cause 1 is that of opcodes 6 and 7 (R55). -/
theorem decode_eq_reservedOpcode_iff : decode w = .error .reservedOpcode ↔ opField w = 6 ∨ opField w = 7 := by
  rw [decode_eq_iff]
  constructor
  · intro h
    cases h with
    | reservedOpcode hop => exact hop
  · exact .reservedOpcode

/-- Cause 2 is that of a must-be-zero bit that is set, in each of the four formats (R55). -/
theorem decode_eq_reservedBits_iff : decode w = .error .reservedBits ↔
    ((opField w = 0 ∨ opField w = 3) ∧ mbzZ w ≠ 0) ∨ ((opField w = 1 ∨ opField w = 2) ∧ mbzP w ≠ 0) ∨
    (opField w = 4 ∧ mbzC w ≠ 0) ∨ (opField w = 5 ∧ mbzL w ≠ 0) := by
  rw [decode_eq_iff]
  constructor
  · intro h
    cases h with
    | reservedBitsZ hop hmbz => exact .inl ⟨hop, hmbz⟩
    | reservedBitsP hop hmbz => exact .inr (.inl ⟨hop, hmbz⟩)
    | reservedBitsC hop hmbz => exact .inr (.inr (.inl ⟨hop, hmbz⟩))
    | reservedBitsL hop hmbz => exact .inr (.inr (.inr ⟨hop, hmbz⟩))
  · rintro (⟨hop, hmbz⟩ | ⟨hop, hmbz⟩ | ⟨hop, hmbz⟩ | ⟨hop, hmbz⟩)
    · exact .reservedBitsZ hop hmbz
    · exact .reservedBitsP hop hmbz
    · exact .reservedBitsC hop hmbz
    · exact .reservedBitsL hop hmbz

/-- Cause 3 is that of a `LUT` with clear must-be-zero bits and level 7 (R55). -/
theorem decode_eq_romLevel_iff :
    decode w = .error .romLevel ↔ opField w = 5 ∧ mbzL w = 0 ∧ levelField w = 7 := by
  rw [decode_eq_iff]
  constructor
  · intro h
    cases h with
    | romLevel hop hmbz hlevel => exact ⟨hop, hmbz, hlevel⟩
  · rintro ⟨hop, hmbz, hlevel⟩
    exact .romLevel hop hmbz hlevel

end Causes

/-- A slice has a value exactly when the quotient and remainder of the word have it. -/
theorem slice_eq_iff (w : CmdWord) (start len : Nat) (v : BitVec len) :
    w.extractLsb' start len = v ↔ w.toNat / 2 ^ start % 2 ^ len = v.toNat := by
  rw [← BitVec.toNat_inj, slice_toNat]

/-- The opcode field has a value exactly when the word has that opcode. -/
theorem opField_eq_iff (w : CmdWord) (op : BitVec 3) : opField w = op ↔ Reference.hasOp w op.toNat := by
  rw [← BitVec.toNat_inj, opField_toNat]

/-- An illegal word raises `IllegalCommand` with its cause from every state (R90). -/
theorem raises_of_decode {w : CmdWord} {c : Machine.Cause} (h : decode w = .error c) : Reference.raises w c :=
  ⟨h, fun _ hw => Machine.step_illegal hw h⟩

/-- The mask of the bits from `at_` on clears the bits below and keeps the others. -/
theorem and_highMask {n : Nat} (w : BitVec n) (at_ : Nat) : w &&& BitVec.allOnes n <<< at_ = w >>> at_ <<< at_ := by
  apply BitVec.eq_of_getLsbD_eq
  intro i hi
  by_cases hlow : i < at_
  · simp [hlow]
  · simp [hlow, hi, Nat.add_sub_of_le (Nat.le_of_not_lt hlow)]

/-- What the mask keeps, as a number. -/
theorem and_highMask_toNat {n : Nat} (w : BitVec n) (at_ : Nat) :
    (w &&& BitVec.allOnes n <<< at_).toNat = 2 ^ at_ * (w.toNat / 2 ^ at_) := by
  have hfits : 2 ^ at_ * (w.toNat / 2 ^ at_) < 2 ^ n := (Nat.mul_div_le _ _).trans_lt w.isLt
  rw [and_highMask, BitVec.toNat_shiftLeft, BitVec.toNat_ushiftRight, Nat.shiftRight_eq_div_pow, Nat.shiftLeft_eq, Nat.mul_comm,
    Nat.mod_eq_of_lt hfits]

/-- A match and mask test of R53 compares the opcode and asks for 0 in the must-be-zero bits, which reach from `at_` up to the
opcode. -/
theorem and_highMask_eq_opcode_iff (w : CmdWord) (op : BitVec 3) {at_ n : Nat} (h : at_ + n = 45) :
    w &&& BitVec.allOnes 48 <<< at_ = place op 45 ↔ opField w = op ∧ w.extractLsb' at_ n = 0 := by
  have hpow : 2 ^ 45 * op.toNat = 2 ^ at_ * (2 ^ n * op.toNat) := by rw [← h, Nat.pow_add, Nat.mul_assoc]
  have hop : (opField w).toNat = w.toNat / 2 ^ at_ / 2 ^ n := by rw [opField_toNat, Nat.div_div_eq_div_mul, ← Nat.pow_add, h]
  have hzero : (0 : BitVec n).toNat = 0 := BitVec.toNat_zero
  rw [← BitVec.toNat_inj, and_highMask_toNat, place_toNat _ _ (by omega), hpow,
    Nat.mul_right_inj (Nat.two_pow_pos at_).ne', ← BitVec.toNat_inj, ← BitVec.toNat_inj, slice_toNat, hop, hzero,
    Nat.div_mod_unique (Nat.two_pow_pos n), Nat.zero_add]
  exact ⟨fun heq => ⟨heq.symm, Nat.two_pow_pos n⟩, fun heq => heq.1.symm⟩

section OpcodeMap
variable {w : CmdWord} {row : OpcodeRow}

/-- A row whose mask covers the opcode and the must-be-zero bits from `at_` on, as a condition on the word's fields (R53). -/
theorem rowMatches_iff (op : BitVec 3) (at_ n : Nat) (h : at_ + n = 45) (hbits : row.matchBits = place op 45)
    (hmask : row.mask = BitVec.allOnes 48 <<< at_) :
    rowMatches row w = true ↔
      opField w = op ∧ w.extractLsb' at_ n = 0 ∧ (row.mnemonic ≠ "LUT" ∨ levelField w ≠ 7) := by
  rw [rowMatches, Bool.and_eq_true, Bool.or_eq_true, beq_iff_eq, bne_iff_ne, bne_iff_ne, hbits, hmask,
    and_highMask_eq_opcode_iff w op h, and_assoc]

/-- A mnemonic has one row (R53). -/
theorem row_eq_of_mnemonic_eq : ∀ a ∈ opcodeMap, ∀ b ∈ opcodeMap, a.mnemonic = b.mnemonic → a = b := by decide

/-- A word that decodes matches the row of its command. -/
theorem exists_row_of_decode {i : Instr} (h : decode w = .ok i) :
    ∃ row ∈ opcodeMap, row.mnemonic = i.mnemonic ∧ rowMatches row w = true := by
  cases decode_eq_iff.1 h with
  | nop hop hmbz =>
    exact ⟨opcodeMap[0], List.getElem_mem _, rfl, (rowMatches_iff 0 0 45 rfl rfl rfl).2 ⟨hop, hmbz, .inl (by decide)⟩⟩
  | shadeStd hop hmbz =>
    exact ⟨opcodeMap[1], List.getElem_mem _, rfl, (rowMatches_iff 1 42 3 rfl rfl rfl).2 ⟨hop, hmbz, .inl (by decide)⟩⟩
  | shadeSpc hop hmbz =>
    exact ⟨opcodeMap[2], List.getElem_mem _, rfl, (rowMatches_iff 2 42 3 rfl rfl rfl).2 ⟨hop, hmbz, .inl (by decide)⟩⟩
  | clrst hop hmbz =>
    exact ⟨opcodeMap[3], List.getElem_mem _, rfl, (rowMatches_iff 3 0 45 rfl rfl rfl).2 ⟨hop, hmbz, .inl (by decide)⟩⟩
  | cfg hop hmbz =>
    exact ⟨opcodeMap[4], List.getElem_mem _, rfl, (rowMatches_iff 4 2 43 rfl rfl rfl).2 ⟨hop, hmbz, .inl (by decide)⟩⟩
  | lut hop hmbz hlevel =>
    exact ⟨opcodeMap[5], List.getElem_mem _, rfl, (rowMatches_iff 5 10 35 rfl rfl rfl).2 ⟨hop, hmbz, .inr hlevel⟩⟩

/-- A word that matches a row decodes to a command of the row's mnemonic. -/
theorem exists_decode_of_rowMatches (hrow : row ∈ opcodeMap) (h : rowMatches row w = true) :
    ∃ i, decode w = .ok i ∧ i.mnemonic = row.mnemonic := by
  simp only [opcodeMap, List.mem_cons, List.not_mem_nil, or_false] at hrow
  obtain rfl | rfl | rfl | rfl | rfl | rfl := hrow
  · obtain ⟨hop, hmbz, -⟩ := (rowMatches_iff 0 0 45 rfl rfl rfl).1 h
    exact ⟨_, (DecodesTo.nop hop hmbz).decode_eq, rfl⟩
  · obtain ⟨hop, hmbz, -⟩ := (rowMatches_iff 1 42 3 rfl rfl rfl).1 h
    exact ⟨_, (DecodesTo.shadeStd hop hmbz).decode_eq, rfl⟩
  · obtain ⟨hop, hmbz, -⟩ := (rowMatches_iff 2 42 3 rfl rfl rfl).1 h
    exact ⟨_, (DecodesTo.shadeSpc hop hmbz).decode_eq, rfl⟩
  · obtain ⟨hop, hmbz, -⟩ := (rowMatches_iff 3 0 45 rfl rfl rfl).1 h
    exact ⟨_, (DecodesTo.clrst hop hmbz).decode_eq, rfl⟩
  · obtain ⟨hop, hmbz, -⟩ := (rowMatches_iff 4 2 43 rfl rfl rfl).1 h
    exact ⟨_, (DecodesTo.cfg hop hmbz).decode_eq, rfl⟩
  · obtain ⟨hop, hmbz, hlevel⟩ := (rowMatches_iff 5 10 35 rfl rfl rfl).1 h
    exact ⟨_, (DecodesTo.lut hop hmbz (hlevel.resolve_left (by simp))).decode_eq, rfl⟩

/-- A row is matched exactly by the words that decode to a command of its mnemonic (R53). -/
theorem rowMatches_iff_exists_decode (hrow : row ∈ opcodeMap) :
    rowMatches row w = true ↔ ∃ i, decode w = .ok i ∧ i.mnemonic = row.mnemonic := by
  refine ⟨exists_decode_of_rowMatches hrow, fun ⟨i, hi, hname⟩ => ?_⟩
  obtain ⟨row', hrow', hname', hmatch⟩ := exists_row_of_decode hi
  rwa [row_eq_of_mnemonic_eq row hrow row' hrow' (hname.symm.trans hname'.symm)]

/-- Every mask covers the opcode bits, so a word that meets a row's pattern has the row's opcode (R53). -/
theorem opField_of_pattern (hrow : row ∈ opcodeMap) (h : row.mask &&& w = row.matchBits) :
    opField w = opField row.matchBits := by
  have hmask : ∀ row ∈ opcodeMap, opField row.mask = BitVec.allOnes 3 := by decide
  have hand : opField (row.mask &&& w) = opField row.mask &&& opField w := BitVec.extractLsb'_and
  rw [← h, hand, hmask row hrow, BitVec.allOnes_and]

/-- No two rows have the same opcode (R53). -/
theorem opcodeMap_pairwise_opcode : opcodeMap.Pairwise fun a b => opField a.matchBits ≠ opField b.matchBits := by decide

/-- No word meets the patterns of two rows, since they differ in the opcode (R53). -/
theorem opcodeMap_pairwise_disjoint (w : CmdWord) :
    opcodeMap.Pairwise fun a b => ¬(a.mask &&& w = a.matchBits ∧ b.mask &&& w = b.matchBits) :=
  opcodeMap_pairwise_opcode.imp_of_mem fun ha hb hne ⟨hwa, hwb⟩ =>
    hne ((opField_of_pattern ha hwa).symm.trans (opField_of_pattern hb hwb))

end OpcodeMap

end Sys2Proof

namespace Sys2Proof.Assembler

/-- A number stands for the field of which it is the value, and for no other (R58). -/
theorem field_eq_some_iff {n v : Nat} {b : BitVec n} : field n v = some b ↔ b.toNat = v := by
  unfold field
  split
  next h => rw [Option.some_inj, ← BitVec.toNat_inj, BitVec.toNat_ofNat, Nat.mod_eq_of_lt h, eq_comm]
  next h => exact iff_of_false (by simp) fun hb => h (hb ▸ b.isLt)

/-- `0` and `1` stand for the two booleans, and no other number for any (R58). -/
theorem flag_eq_some_iff {v : Nat} {b : Bool} : flag v = some b ↔ b.toNat = v := by
  match v with
  | 0 => cases b <;> decide
  | 1 => cases b <;> decide
  | v + 2 => exact iff_of_false (by simp [flag]) (by have := b.toNat_lt; omega)

/-- The levels are the three-bit fields other than 7 (R52). -/
theorem level_eq_some_iff {v : Nat} {l : BitVec 3} : level v = some l ↔ l.toNat = v ∧ l ≠ 7 := by
  have hne : l ≠ 7 ↔ l.toNat ≠ 7 := (BitVec.toNat_ne_iff_ne (y := 7)).symm
  unfold level
  split
  next h =>
    rw [Option.some_inj, hne, ← BitVec.toNat_inj, BitVec.toNat_ofNat, Nat.mod_eq_of_lt (by omega)]
    omega
  next h => exact iff_of_false (by simp) (by rw [hne]; omega)

/-- The ten numbers of a pixel stand for that pixel, and no others do (R49, R58). -/
theorem pixel_eq_some_iff {ops : List Nat} {p : Pixel} : pixel ops = some p ↔ operands.ofPixel p = ops := by
  constructor
  · intro h
    unfold pixel at h
    split at h
    next =>
      simp only [bind, Option.bind_eq_some_iff, pure, Option.some_inj, field_eq_some_iff, flag_eq_some_iff] at h
      obtain ⟨_, rfl, _, rfl, _, rfl, _, rfl, _, rfl, _, rfl, _, rfl, _, rfl, _, rfl, _, rfl, rfl⟩ := h
      rfl
    next => simp at h
  · rintro rfl
    simp [pixel, operands.ofPixel, field_eq_some_iff.2 rfl, flag_eq_some_iff.2 rfl]

/-- A mnemonic with operands stands for the well-formed command written so, and for no other (R52, R58). -/
theorem command_eq_some_iff {mnemonic : String} {ops : List Nat} {i : Instr} :
    command mnemonic ops = some i ↔ i.wellFormed = true ∧ i.mnemonic = mnemonic ∧ operands i = ops := by
  constructor
  · intro h
    unfold command at h
    split_ifs at h with hnop hops hstd hspc hclrst hops hcfg hlut
    · cases h
      exact ⟨rfl, hnop.symm, hops.symm⟩
    · obtain ⟨p, hp, rfl⟩ := Option.map_eq_some_iff.1 h
      exact ⟨rfl, hstd.symm, pixel_eq_some_iff.1 hp⟩
    · obtain ⟨p, hp, rfl⟩ := Option.map_eq_some_iff.1 h
      exact ⟨rfl, hspc.symm, pixel_eq_some_iff.1 hp⟩
    · cases h
      exact ⟨rfl, hclrst.symm, hops.symm⟩
    · split at h
      next d t =>
        simp only [bind, Option.bind_eq_some_iff, pure, Option.some_inj, flag_eq_some_iff] at h
        obtain ⟨_, rfl, _, rfl, rfl⟩ := h
        exact ⟨rfl, hcfg.symm, rfl⟩
      next => simp at h
    · split at h
      next l x =>
        simp only [bind, Option.bind_eq_some_iff, pure, Option.some_inj, level_eq_some_iff, field_eq_some_iff] at h
        obtain ⟨_, ⟨rfl, hne⟩, _, rfl, rfl⟩ := h
        exact ⟨bne_iff_ne.2 hne, hlut.symm, rfl⟩
      next => simp at h
  · rintro ⟨hwf, rfl, rfl⟩
    cases i with
    | nop => rfl
    | shadeStd p =>
      have hp : pixel (operands (.shadeStd p)) = some p := pixel_eq_some_iff.2 rfl
      simp [command, Instr.mnemonic, hp]
    | shadeSpc p =>
      have hp : pixel (operands (.shadeSpc p)) = some p := pixel_eq_some_iff.2 rfl
      simp [command, Instr.mnemonic, hp]
    | clrst => rfl
    | cfg d t => simp [command, Instr.mnemonic, operands, flag_eq_some_iff.2 rfl]
    | lut l x =>
      have hl : level l.toNat = some l := level_eq_some_iff.2 ⟨rfl, bne_iff_ne.1 hwf⟩
      simp [command, Instr.mnemonic, operands, hl, field_eq_some_iff.2 rfl]

/-- A mnemonic of R53 is no pseudo-command's (R59), so its line is the command alone. -/
theorem line_mnemonic (i : Instr) (ops : List Nat) : line i.mnemonic ops = (command i.mnemonic ops).map ([·]) := by
  cases i <;> simp [line, Instr.mnemonic]

/-- The line of a `LUT` with its operands in range (R52, R58). -/
theorem line_lut {l x : Nat} (hl : l ≤ 6) (hx : x < 128) :
    line "LUT" [l, x] = some [.lut (BitVec.ofNat 3 l) (BitVec.ofNat 7 x)] := by
  have hlevel : level l = some (BitVec.ofNat 3 l) := if_pos (by omega)
  have hfield : field 7 x = some (BitVec.ofNat 7 x) := if_pos hx
  simp [line, command, hlevel, hfield]

/-- A colour keeps its value as a ROM index. -/
theorem setWidth_color {c : Nat} (hc : c ≤ 63) : (BitVec.ofNat 6 c).setWidth 7 = BitVec.ofNat 7 c :=
  BitVec.setWidth_ofNat_of_le_of_lt (by decide) (by omega)

/-- The line of a `LUT.B` with its operands in range: the index is the colour (R59). -/
theorem line_lutB {l c : Nat} (hl : l ≤ 6) (hc : c ≤ 63) :
    line "LUT.B" [l, c] = some [.lut (BitVec.ofNat 3 l) (BitVec.ofNat 7 c)] := by
  have hlevel : level l = some (BitVec.ofNat 3 l) := if_pos (by omega)
  have hfield : field 6 c = some (BitVec.ofNat 6 c) := if_pos (by omega)
  simp [line, hlevel, hfield, setWidth_color hc]

/-- The line of a `LUT.S` with its operands in range: the index is 64 above the colour (R59). -/
theorem line_lutS {l c : Nat} (hl : l ≤ 6) (hc : c ≤ 63) :
    line "LUT.S" [l, c] = some [.lut (BitVec.ofNat 3 l) (BitVec.ofNat 7 (c + 64))] := by
  have hlevel : level l = some (BitVec.ofNat 3 l) := if_pos (by omega)
  have hfield : field 6 c = some (BitVec.ofNat 6 c) := if_pos (by omega)
  simp [line, hlevel, hfield, setWidth_color hc, BitVec.ofNat_add]

end Sys2Proof.Assembler

namespace Sys2Proof.Machine

open Sys2Proof.Reference

/-- The brightness curve is the table of R69, on the values no run reaches too. -/
theorem curve_eq_curveTable : ∀ x : Count, curve x = curveTable x.toNat := by decide

/-- The table's levels are 3, 4 and 5 (R69). -/
theorem curveTable_range (n : Nat) : 3 ≤ curveTable n ∧ curveTable n ≤ 5 := by
  unfold curveTable
  split_ifs <;> omega

/-- The lowest bit of a field is its parity. -/
theorem getLsbD_zero_eq {n : Nat} (v : BitVec n) : v.getLsbD 0 = decide (v.toNat % 2 = 1) := by
  rw [BitVec.getLsbD, Nat.testBit_zero]

/-- The parity of a sum is the exclusive or of the parities. -/
theorem decide_odd_add (a b : Nat) : decide ((a + b) % 2 = 1) = (decide (a % 2 = 1) ^^ decide (b % 2 = 1)) := by
  obtain ha | ha := Nat.mod_two_eq_zero_or_one a <;> obtain hb | hb := Nat.mod_two_eq_zero_or_one b <;>
    simp [Nat.add_mod, ha, hb]

/-- The parity of the coordinate sum, bit by bit (R69, R77). -/
theorem oddParity_eq_parityBit (p : Pixel) : oddParity p = parityBit p := by
  simp only [oddParity, parityBit, getLsbD_zero_eq, ← decide_odd_add]
  rfl

section SpectralColor
variable (p : Pixel) (c : CfgReg) (r : ShaderState)

/-- The pass as step 4 of `SHADE.SPC` finds it (R64). -/
def beforeDecay : Pass := phaseStep p (spriteStep p (edgeStep p (passStart p c r)))

theorem spectralPass_eq : spectralPass p c r = levelStep p c (decayStep p (beforeDecay p c r)) := rfl

/-- Step 4 finds the closed form's `spShadow` (R66). -/
theorem beforeDecay_spShadow : (beforeDecay p c r).regs.spShadow.toNat = spRaised p r := by
  obtain ⟨hsp, -⟩ := trackPhase_frame p (spriteStep p (edgeStep p (passStart p c r))).loc.mute
    (spriteStep p (edgeStep p (passStart p c r))).regs
  rw [beforeDecay, phaseStep, hsp]
  by_cases h : edgeColumn p
  · simp [spriteStep_edgeStep_of_edgeColumn p c r h, Nat.mod_eq_of_lt (spRaised_lt p r)]
  · simp [spriteStep_edgeStep_of_not_edgeColumn p c r h, Nat.mod_eq_of_lt (spRaised_lt p r)]

/-- Step 4 finds the closed form's `bgShadow` (R65, R67). -/
theorem beforeDecay_bgShadow : (beforeDecay p c r).regs.bgShadow.toNat = bgRaised p r := by
  rw [beforeDecay, phaseStep, trackPhase_bgShadow, bgRaised]
  by_cases h : edgeColumn p
  · simp [spriteStep_edgeStep_of_edgeColumn p c r h, h]
  · rw [spriteStep_edgeStep_of_not_edgeColumn p c r h]
    simp [h, passStart]

/-- Steps 1 to 3 write no call-local value but `mute` (R65 to R67). -/
theorem beforeDecay_loc :
    (beforeDecay p c r).loc = { (passStart p c r).loc with mute := (beforeDecay p c r).loc.mute } := by
  by_cases h : edgeColumn p
  · simp [beforeDecay, phaseStep, spriteStep_edgeStep_of_edgeColumn p c r h]
  · simp [beforeDecay, phaseStep, spriteStep_edgeStep_of_not_edgeColumn p c r h]

/-- A counter is active exactly when one of the two is nonzero as a number (R68). -/
theorem shadowActive_iff_toNat (r : ShaderState) :
    shadowActive r = true ↔ r.spShadow.toNat ≠ 0 ∨ r.bgShadow.toNat ≠ 0 := by
  rw [shadowActive_iff, ne_eq, ne_eq, ← BitVec.toNat_inj, ← BitVec.toNat_inj]
  rfl

/-- Step 4 leaves the registers of the closed form. -/
theorem decayStep_regs : (decayStep p (beforeDecay p c r)).regs = shaderNext p r :=
  (spectralPass_regs_eq_decayStep p c r).symm.trans (spectralPass_regs p c r)

/-- What step 5 finds in `dither` (R68): the option, or an active counter with a dark colour. -/
theorem decayStep_dither : (decayStep p (beforeDecay p c r)).loc.dither = true ↔
    c.fxDither = true ∨ ((spRaised p r ≠ 0 ∨ bgRaised p r ≠ 0) ∧ p.bgColor.toNat < 0x20) := by
  obtain ⟨-, -, -, -, hloc⟩ := decayStep_spec p (beforeDecay p c r)
  rw [hloc, Bool.or_eq_true, Bool.and_eq_true, decide_eq_true_eq, shadowActive_iff_toNat, beforeDecay_spShadow,
    beforeDecay_bgShadow, beforeDecay_loc]
  rfl

/-- What step 5 finds as the ROM index and the level: the colour's bright entry at the neutral level (R64). -/
theorem decayStep_lookup : (decayStep p (beforeDecay p c r)).loc.color = brightIndex p.bgColor ∧
    (decayStep p (beforeDecay p c r)).loc.pshift = 3 := by
  obtain ⟨-, -, -, -, hloc⟩ := decayStep_spec p (beforeDecay p c r)
  rw [hloc, beforeDecay_loc]
  exact ⟨rfl, rfl⟩

/-- The shadow bias of step 5 applies: a counter is active after step 4 (R69 (c)). -/
theorem shadowActive_shaderNext :
    shadowActive (shaderNext p r) = true ↔ spRaised p r - 2 ≠ 0 ∨ bgRaised p r - 1 ≠ 0 := by
  rw [shadowActive_iff_toNat, shaderNext_spShadow, shaderNext_bgShadow]

/-- The level before the bias, by the table of R69. -/
theorem curveLevel_shaderNext :
    curveLevel p (shaderNext p r) = if p.bgColor.toNat % 16 = 10 then 3 else curveTable (phaseNext p r) := by
  rw [curveLevel, exempt, curve_eq_curveTable, shaderNext_phase]
  simp only [beq_iff_eq, Config.exemptNibble, Config.neutral]

/-- The output level lies in 2..5, and 2 needs an active counter (R75). -/
theorem levelNext_range : 2 ≤ levelNext p c r ∧ levelNext p c r ≤ 5 ∧
    (levelNext p c r = 2 → shadowActive (shaderNext p r) = true) := by
  have hcurve := curveTable_range (phaseNext p r)
  rw [shadowActive_shaderNext, levelNext]
  split_ifs <;> omega

/-- Step 5 on a shown background pixel selects the level of the closed form (R69). -/
theorem spectralPass_pshift (h : backgroundShown c p = true) : (spectralPass p c r).loc.pshift.val = levelNext p c r := by
  obtain ⟨-, hle, -⟩ := levelNext_range p c r
  rw [← clampLevel_val (hle.trans (by decide)), spectralPass_eq, levelStep, if_pos h]
  simp only [decayStep_regs, curveLevel_shaderNext, oddParity_eq_parityBit, Bool.and_eq_true, decayStep_dither,
    shadowActive_shaderNext, levelNext]
  split_ifs <;> rfl

/-- Step 5 on a shown background pixel takes the shadow half where a counter is active and the colour is low (R69). -/
theorem spectralPass_color (h : backgroundShown c p = true) : (spectralPass p c r).loc.color =
    if shadowActive (shaderNext p r) = true ∧ p.bgColor.toNat ≤ 0x10 then shadowIndex p.bgColor else brightIndex p.bgColor := by
  obtain ⟨hcolor, -⟩ := decayStep_lookup p c r
  have hshadow : brightIndex p.bgColor + 64 = shadowIndex p.bgColor := BitVec.add_comm _ _
  rw [spectralPass_eq, levelStep, if_pos h]
  simp only [decayStep_regs, hcolor, brightIndex_toNat, Bool.and_eq_true, decide_eq_true_eq, Config.lowColor, hshadow]

/-- Step 5 on any other pixel selects nothing: the lookup stays at the neutral level (R69). -/
theorem spectralPass_lookup_of_hidden (h : backgroundShown c p = false) :
    (spectralPass p c r).loc.color = brightIndex p.bgColor ∧ (spectralPass p c r).loc.pshift = 3 := by
  rw [spectralPass_eq, levelStep, if_neg (by simp [h])]
  exact decayStep_lookup p c r

/-- One row up or more, a colour loses its row at level 2 and does not meet the floor (R30, R32). -/
theorem shadowEntry_two_of_row {i : Nat} (h : 0x10 ≤ i) : shadowEntry 2 i = brightEntry 2 i := by
  rw [shadowEntry, if_neg (by decide), if_pos (by omega), brightEntry, if_neg (by decide)]

/-- What a shown background pixel looks up is the shadow entry at level 2 and the bright entry above: at level 2 a counter is
active, and the half makes a difference for low colours only; above it the halves agree (R75). -/
theorem romRead_of_shown (h : backgroundShown c p = true) :
    romRead (spectralPass p c r).loc.pshift (spectralPass p c r).loc.color =
      if levelNext p c r = 2 then BitVec.ofNat 6 (shadowEntry 2 p.bgColor.toNat)
      else BitVec.ofNat 6 (brightEntry (levelNext p c r) p.bgColor.toNat) := by
  obtain ⟨hge, -, hactive⟩ := levelNext_range p c r
  rw [spectralPass_color p c r h]
  split_ifs with hlow htwo htwo
  · rw [romRead_shadowIndex, spectralPass_pshift p c r h, htwo]
  · rw [romRead_shadowIndex, spectralPass_pshift p c r h, shadowEntry, if_pos (by omega)]
  · have hrow : 0x10 ≤ p.bgColor.toNat := by have := not_and.1 hlow (hactive htwo); omega
    rw [romRead_brightIndex, spectralPass_pshift p c r h, htwo, shadowEntry_two_of_row hrow]
  · rw [romRead_brightIndex, spectralPass_pshift p c r h]

/-- The response of a `SHADE.SPC` is that of the closed form (R69, R75, R76). -/
theorem outputColor_spectralPass : outputColor p (spectralPass p c r) = spectralColor p c r := by
  unfold outputColor spectralColor
  by_cases hshown : backgroundShown c p = true
  · obtain ⟨hsprite, htransparent⟩ := not_or.1 ((backgroundShown_iff c p).1 hshown)
    rw [if_neg hsprite, if_neg hsprite, if_neg htransparent, romRead_of_shown p c r hshown]
  · obtain ⟨hcolor, hpshift⟩ := spectralPass_lookup_of_hidden p c r (by simpa using hshown)
    rw [hpshift, hcolor]
    obtain hsprite | htransparent := not_not.1 (mt (backgroundShown_iff c p).2 hshown)
    · rw [if_pos hsprite, if_pos hsprite, romRead_neutral_bright]
    · rw [if_pos htransparent]
      split_ifs <;> exact romRead_neutral_bright _

end SpectralColor

/-- While a response is presented, the ports carry it (R57). -/
theorem ports_of_rsp {t : State} {q : Response} (h : t.rsp = some q) :
    t.rspStatus = responseStatus q ∧ t.rspData = responseData q := by
  simp [State.rspStatus, State.rspData, h]

/-- Status 3 belongs to no response (R57). -/
theorem responseStatus_ne_three (q : Response) : responseStatus q ≠ 3 := by
  cases q <;> simp [responseStatus]

section AfterStep
variable {s t : State} {w : CmdWord} (hw : fetch s = some (.command w)) (h : step s = .next t)
include hw h

/-- After a decoded command the response of its meaning is presented (R57). -/
theorem step_rsp_of_exec {i : Instr} {u : State} {q : Response} (hi : decode w = .ok i) (hu : exec i s = .next u)
    (hq : u.rsp = some q) : t.rsp = some q := by
  have hstep := step_command hw hi
  rw [h, hu] at hstep
  cases hstep
  exact hq

/-- After an illegal word its cause is presented (R57, R90). -/
theorem step_rsp_of_illegal {c : Cause} (hc : decode w = .error c) : t.rsp = some (.err c) := by
  have hstep := step_illegal hw hc
  rw [h] at hstep
  cases hstep
  rfl

end AfterStep

end Sys2Proof.Machine

namespace Sys2Proof.Proofs

open Sys2Proof.Machine Sys2Proof.Reference Sys2Proof.Assembler

/-- Settles O1: the word of a well-formed command meets the conditions of its row of the decoder's table. -/
theorem decodeEncodeRoundTrip : Obligations.DecodeEncodeRoundTrip :=
  fun _ h => decode_eq_iff.2 (decodesTo_encode h)

/-- Settles O2: the fields of a word make the word, and those of one that decodes are its opcode and its operands. -/
theorem decodedWordIsTheEncoding : Obligations.DecodedWordIsTheEncoding :=
  fun _ _ h => (decode_eq_iff.1 h).wellFormed_and_encode_eq

/-- Settles O3: a row's match and mask test asks for the fields of one row of the decoder's table, and the rows differ in the
opcode. -/
theorem decodeFollowsOpcodeMap : Obligations.DecodeFollowsOpcodeMap := by
  intro w
  refine ⟨fun row hrow => rowMatches_iff_exists_decode hrow, opcodeMap_pairwise_disjoint w, fun hnone => ?_⟩
  cases h : decode w with
  | error c => exact ⟨c, raises_of_decode h⟩
  | ok i =>
    obtain ⟨row, hrow, -, hmatch⟩ := exists_row_of_decode h
    exact absurd hmatch (by simp [hnone row hrow])

/-- Settles O4: each refusal of the decoder's table, its conditions read as quotients and remainders of the word. -/
theorem illegalWordsAndTheirCauses : Obligations.IllegalWordsAndTheirCauses := by
  intro w
  rw [decode_eq_reservedOpcode_iff, decode_eq_reservedBits_iff, decode_eq_romLevel_iff]
  simp only [opField_eq_iff, mbzZ, mbzP, mbzC, mbzL, levelField, slice_eq_iff, ne_eq, Nat.pow_zero, Nat.div_one]
  exact ⟨Iff.rfl, Iff.rfl, Iff.rfl, fun _ => raises_of_decode⟩

/-- Settles O5: the fields of the word of a pixel are its operands, and they make the word. -/
theorem pixelWordLayout : Obligations.PixelWordLayout :=
  fun p => ⟨encodePixel_toNat 1 p, encodePixel_toNat 2 p⟩

/-- Settles O7, from what stands for a command: its mnemonic and its operands, where it is well-formed. -/
theorem linesStandForCommands : Obligations.LinesStandForCommands := by
  refine ⟨fun i hwf => ?_, fun mnemonic ops i h => command_eq_some_iff.1 h⟩
  rw [line_mnemonic, command_eq_some_iff.2 ⟨hwf, rfl, rfl⟩, Option.map_some]

/-- Settles O8, from the lines of `LUT`, `LUT.B` and `LUT.S` with their operands in range; the other two are fixed lines. -/
theorem pseudoCommandsExpand : Obligations.PseudoCommandsExpand := by
  refine ⟨by decide, by decide, fun level color hl hc => ?_⟩
  have hlut : line "LUT" [level, color + 64] = some [.lut (BitVec.ofNat 3 level) (BitVec.ofNat 7 (color + 64))] :=
    line_lut hl (by omega)
  exact ⟨by rw [line_lutB hl hc, line_lut hl (by omega)], by rw [line_lutS hl hc, hlut], hlut⟩

/-- Settles O54: the ports carry the response of the command's meaning, or the cause of the refusal. -/
theorem responsePorts : Obligations.ResponsePorts := by
  intro s t w hw h
  have hvalid : t.rspValid = true := step_rspValid h hw
  obtain ⟨q, hq⟩ := Option.isSome_iff_exists.1 hvalid
  refine ⟨hvalid, ?_, ?_, fun p hi => ?_, fun p hi => ?_, fun level index hi => ?_, fun hc => ?_, fun hc => ?_, fun hc => ?_⟩
  · rw [(ports_of_rsp hq).1]
    exact responseStatus_ne_three q
  · rintro (hi | hi | ⟨d, e, hi⟩)
    · exact ports_of_rsp (step_rsp_of_exec hw h hi (exec_nop s) rfl)
    · exact ports_of_rsp (step_rsp_of_exec hw h hi (exec_clrst s) rfl)
    · exact ports_of_rsp (step_rsp_of_exec hw h hi (exec_cfg s d e) rfl)
  · exact ports_of_rsp (step_rsp_of_exec hw h hi (exec_shadeStd s p) rfl)
  · rw [← outputColor_spectralPass]
    exact ports_of_rsp (step_rsp_of_exec hw h hi (exec_shadeSpc s p) rfl)
  · rw [← romRead_eq_romImage]
    exact ports_of_rsp (step_rsp_of_exec hw h hi (exec_lut_level s (levelOf_ofNat level) index) rfl)
  · exact ports_of_rsp (step_rsp_of_illegal hw h hc)
  · exact ports_of_rsp (step_rsp_of_illegal hw h hc)
  · exact ports_of_rsp (step_rsp_of_illegal hw h hc)

end Sys2Proof.Proofs

/-! The standard shader (40_standard_shader.md): its multiplexer, its words, and how the spectral shader's colour compares with
it. The statements O6, O23, O24 and O41. -/

namespace Sys2Proof

/-- A word that the encoder makes of a well-formed command decodes to that command (R49 to R53). -/
theorem decode_of_encode_eq {w : CmdWord} {i : Instr} (hwf : i.wellFormed = true) (hw : encode i = w) : decode w = .ok i :=
  decode_eq_iff.2 (hw ▸ decodesTo_encode hwf)

/-- A word is a `SHADE.STD` when its opcode is 1 and its must-be-zero bits are 0, and the operands are its fields (R49, R61). -/
theorem decode_eq_shadeStd_iff {w : CmdWord} {p : Pixel} :
    decode w = .ok (.shadeStd p) ↔ opField w = 1 ∧ mbzP w = 0 ∧ pixelOf w = p := by
  rw [decode_eq_iff]
  constructor
  · intro h
    cases h with
    | shadeStd hop hmbz => exact ⟨hop, hmbz, rfl⟩
  · rintro ⟨hop, hmbz, rfl⟩
    exact .shadeStd hop hmbz

/-- The must-be-zero bits of format P are 0 exactly when bits 44:42 of the word's number are (R49). -/
theorem mbzP_eq_zero_iff (w : CmdWord) : mbzP w = 0 ↔ w.toNat / 2 ^ 42 % 2 ^ 3 = 0 :=
  slice_eq_iff w 42 3 0

/-- A shader's word with one of bits 44:42 set raises `IllegalCommand` with cause 2 (R55, R61, R64). -/
theorem raises_reservedBits_of_mbzP {w : CmdWord} (hop : opField w = 1 ∨ opField w = 2) (hmbz : mbzP w ≠ 0) :
    Reference.raises w .reservedBits :=
  raises_of_decode (decode_eq_reservedBits_iff.2 (.inr (.inl ⟨hop, hmbz⟩)))

end Sys2Proof

namespace Sys2Proof.Machine

open Sys2Proof.Reference

/-- The bright entry keeps the column of its colour at every level (R32). -/
theorem brightEntry_mod (level i : Nat) : brightEntry level i % 16 = i % 16 := by
  unfold brightEntry
  split <;> rw [Nat.mul_add_mod, Nat.mod_mod]

/-- A number as a colour keeps its column: the columns divide the 64 colours evenly. -/
theorem color_ofNat_mod (n : Nat) : (BitVec.ofNat 6 n).toNat % 16 = n % 16 := by
  rw [BitVec.toNat_ofNat]
  exact Nat.mod_mod_of_dvd n (by decide)

/-- The colour of a background pixel keeps its column or is `BLACK` (R63): shown, it is a ROM entry of `bgColor`, and only the
shadow half leaves the column. -/
theorem spectralColor_column {p : Pixel} (h : p.decision = false) (c : CfgReg) (r : ShaderState) :
    (spectralColor p c r).toNat % 16 = p.bgColor.toNat % 16 ∨ spectralColor p c r = 0x2D := by
  unfold spectralColor
  rw [if_neg (by simp [h])]
  split_ifs
  · exact .inl rfl
  · obtain hbright | ⟨-, hblack⟩ := shadowEntry_cases 2 p.bgColor.toNat
    · exact .inl (by rw [hbright, color_ofNat_mod, brightEntry_mod])
    · exact .inr (by rw [hblack]; rfl)
  · exact .inl (by rw [color_ofNat_mod, brightEntry_mod])

/-- The colour of a sprite pixel is the multiplexer's (R63, R76). -/
theorem spectralColor_of_decision {p : Pixel} (h : p.decision = true) (c : CfgReg) (r : ShaderState) :
    spectralColor p c r = standardColor p := by
  rw [spectralColor, standardColor, if_pos h, if_pos h]

/-- The response of a `SHADE.STD` is the multiplexer's colour (R61). -/
theorem responseOf_shadeStd (p : Pixel) (s : State) :
    responseOf (exec (.shadeStd p) s) = some (.data (standardColor p)) := by
  rw [exec_shadeStd]
  rfl

/-- The response of a `SHADE.SPC` is the closed form's colour. -/
theorem responseOf_shadeSpc (p : Pixel) (s : State) :
    responseOf (exec (.shadeSpc p) s) = some (.data (spectralColor p s.cfg s.shader)) := by
  rw [exec_shadeSpc, outputColor_spectralPass]
  rfl

/-- No `SHADE.SPC` sees the response presented before it (R22). -/
theorem exec_shadeSpc_respond (q : Pixel) (s : State) (v : Response) :
    exec (.shadeSpc q) (s.respond v) = exec (.shadeSpc q) s := rfl

end Sys2Proof.Machine

namespace Sys2Proof.Proofs

open Sys2Proof.Machine Sys2Proof.Reference

/-- Settles O41: the response is the closed form's colour, which is the multiplexer's for a sprite pixel and keeps the column or
is `BLACK` for a background pixel. -/
theorem spectralKeepsTheColumn : Obligations.SpectralKeepsTheColumn := by
  intro p s
  refine ⟨_, responseOf_shadeSpc p s, fun hsprite => ?_, fun hbackground => spectralColor_column hbackground _ _⟩
  rw [responseOf_shadeStd, spectralColor_of_decision hsprite]

/-- Settles O6: each of the six words is the encoder's word of its command. -/
theorem writtenWordsDecode : Obligations.WrittenWordsDecode :=
  ⟨decode_of_encode_eq rfl rfl, decode_of_encode_eq rfl rfl, decode_of_encode_eq rfl rfl, decode_of_encode_eq rfl rfl,
    decode_of_encode_eq rfl rfl, decode_of_encode_eq rfl rfl⟩

/-- Settles O23: the command answers the multiplexer's colour and writes nothing else, and the opcode and the must-be-zero bits
decide what its word is. -/
theorem standardShaderMultiplexes : Obligations.StandardShaderMultiplexes := by
  refine ⟨fun p s => exec_shadeStd s p, decode_of_encode_eq rfl rfl, fun w hop => ?_⟩
  have hop1 : opField w = 1 := (opField_eq_iff w 1).2 hop
  rw [ne_eq, ← mbzP_eq_zero_iff]
  refine ⟨⟨fun hmbz => ⟨pixelOf w, decode_eq_shadeStd_iff.2 ⟨hop1, hmbz, rfl⟩⟩, ?_⟩,
    raises_reservedBits_of_mbzP (.inl hop1)⟩
  rintro ⟨p, hp⟩
  obtain ⟨-, hmbz, -⟩ := decode_eq_shadeStd_iff.1 hp
  exact hmbz

/-- Settles O24: the response is made of the operands alone, and it is all a `SHADE.STD` writes, which no `SHADE.SPC` reads. -/
theorem standardShaderIsInvisible : Obligations.StandardShaderIsInvisible := by
  intro p q s s'
  refine ⟨?_, _, exec_shadeStd s p, respond_shader s _, respond_cfg s _, exec_shadeSpc_respond q s _⟩
  rw [responseOf_shadeStd, responseOf_shadeStd]

end Sys2Proof.Proofs

/-! The spectral shader (41_spectral_shader.md): what each of its six steps writes, on every pass, and what a whole `SHADE.SPC`
does, read off its closed form. The statements O25 to O40. -/

namespace Sys2Proof.Machine

open Sys2Proof.Reference

/-- The dark test reads the listing of R33 (R67). -/
theorem isDark_iff_romImage (c : Color) : isDark c = true ↔ romImage 1 (64 + c.setWidth 7) = 0x2D := by
  rw [isDark, beq_iff_eq, romRead_eq_romImage]
  rfl

/-- The listing's level-1 shadow entry is `BLACK` exactly below 0x20 (R73). -/
theorem romImage_dark_iff (c : Color) : romImage 1 (64 + c.setWidth 7) = 0x2D ↔ c.toNat < 0x20 := by
  rw [← isDark_iff_romImage, isDark_eq, decide_eq_true_eq]

/-- `LUT` shows the entry of the dark test (R73, R84). -/
theorem exec_lut_dark_iff (c : Color) (s : State) :
    exec (.lut 1 (64 + c.setWidth 7)) s = .next { s with rsp := some (.data 0x2D) } ↔ c.toNat < 0x20 := by
  have hexec : exec (.lut 1 (64 + c.setWidth 7)) s = .next (s.respond (.data (romImage 1 (64 + c.setWidth 7)))) := by
    rw [← romRead_eq_romImage]
    exact exec_lut_level s (levelOf_ofNat 1) _
  rw [hexec, ← romImage_dark_iff]
  simp [State.respond]

/-- A colour is below 0x20 exactly when its top bit, bit 5, is 0. -/
theorem color_lt_iff_getLsbD_five (c : Color) : c.toNat < 0x20 ↔ c.getLsbD 5 = false := by
  have hmsb : c.getLsbD 5 = decide (0x20 ≤ c.toNat) := c.msb_eq_getLsbD_last.symm.trans c.msb_eq_decide
  rw [hmsb, decide_eq_false_iff_not, Nat.not_le]

/-- Step 1 leaves `spShadow` alone (R66). -/
theorem edgeStep_spShadow (p : Pixel) (a : Pass) : (edgeStep p a).regs.spShadow = a.regs.spShadow := by
  obtain ⟨-, ha⟩ | ⟨-, ha⟩ := edgeStep_cases p a <;> rw [ha]

/-- The level before the bias, by the table of R69. -/
theorem curveLevel_eq_curveTable (p : Pixel) (r : ShaderState) :
    curveLevel p r = if p.bgColor.toNat % 16 = 10 then 3 else curveTable r.phase.toNat := by
  rw [curveLevel, exempt, curve_eq_curveTable]
  simp only [beq_iff_eq, Config.exemptNibble, Config.neutral]

section LevelStep
variable {p : Pixel} {c : CfgReg}

/-- Step 5 does nothing to a pixel whose background is not shown (R69). -/
theorem levelStep_of_hidden (h : ¬backgroundShown c p = true) (a : Pass) : levelStep p c a = a :=
  if_neg h

/-- The ROM index step 5 selects: the shadow half where a counter is active and the candidate low (R69). -/
theorem levelStep_color (h : backgroundShown c p = true) (a : Pass) :
    (levelStep p c a).loc.color =
      if shadowActive a.regs = true ∧ a.loc.color.toNat ≤ 0x10 then a.loc.color + 64 else a.loc.color := by
  rw [levelStep, if_pos h]
  simp only [Bool.and_eq_true, decide_eq_true_eq, Config.lowColor]

/-- The level step 5 selects; the clamp does nothing, since the level is at most 5 (R69, R75). -/
theorem levelStep_pshift (h : backgroundShown c p = true) (a : Pass) :
    (levelStep p c a).loc.pshift.val =
      if a.loc.dither = true ∧ oddParity p = true then 3
      else curveLevel p a.regs - if shadowActive a.regs = true then 1 else 0 := by
  have hcurve := curveLevel_range p a.regs
  rw [levelStep, if_pos h]
  simp only [Bool.and_eq_true, Config.neutral]
  split_ifs
  · exact clampLevel_val (by decide)
  · exact clampLevel_val (by omega)
  · exact clampLevel_val (by omega)

end LevelStep

/-- `SHADE.SPC` answers the closed form: its registers and its colour. -/
theorem exec_shadeSpc_eq (p : Pixel) (s : State) :
    exec (.shadeSpc p) s =
      .next { s with shader := shaderNext p s.shader, rsp := some (.data (spectralColor p s.cfg s.shader)) } := by
  rw [exec_shadeSpc, spectralPass_regs, outputColor_spectralPass]
  rfl

/-- The pass with `mute` held false (R74). -/
def unmute (a : Pass) : Pass := { a with loc := { a.loc with mute := false } }

section Mute
variable (p : Pixel) (c : CfgReg)

/-- A muted pass comes from step 1, which makes `lastColor` the pixel's colour (R74). -/
theorem mute_eq_false_of_change (r : ShaderState)
    (h : p.bgColor ≠ (spriteStep p (edgeStep p (passStart p c r))).regs.lastColor) :
    (spriteStep p (edgeStep p (passStart p c r))).loc.mute = false := by
  by_cases he : edgeColumn p
  · rw [spriteStep_edgeStep_of_edgeColumn p c r he] at h
    exact absurd rfl h
  · rw [spriteStep_edgeStep_of_not_edgeColumn p c r he]
    rfl

/-- Step 3 reads `mute` only where the colour changes (R67). -/
theorem phaseStep_unmute {a : Pass} (h : p.bgColor ≠ a.regs.lastColor → a.loc.mute = false) :
    phaseStep p (unmute a) = unmute (phaseStep p a) := by
  have htrack : trackPhase p false a.regs = trackPhase p a.loc.mute a.regs := by
    by_cases hc : p.bgColor = a.regs.lastColor
    · simp only [trackPhase, if_pos hc]
    · rw [h hc]
  simp only [phaseStep, unmute, htrack]

/-- Step 4 does not read `mute` (R68). -/
theorem decayStep_unmute (a : Pass) : decayStep p (unmute a) = unmute (decayStep p a) := by
  by_cases h : shadowActive a.regs = true
  · simp [decayStep, unmute, h]
  · simp [decayStep, unmute, h]

/-- Step 5 does not read `mute` (R69). -/
theorem levelStep_unmute (a : Pass) : levelStep p c (unmute a) = unmute (levelStep p c a) := by
  by_cases h : backgroundShown c p = true
  · rw [levelStep, levelStep, if_pos h, if_pos h]
    rfl
  · rw [levelStep_of_hidden h, levelStep_of_hidden h]

end Mute

/-- A colour of row 0 meets the floor at level 2, and its shadow entry is `BLACK` (R30, R32). -/
theorem shadowEntry_two_of_low {i : Nat} (h : i ≤ 0x0F) : shadowEntry 2 i = 0x2D := by
  rw [shadowEntry, if_neg (by decide), if_neg (by omega)]

/-- From level 3 on the halves agree (R32). -/
theorem shadowEntry_of_le {level : Nat} (h : 3 ≤ level) (i : Nat) : shadowEntry level i = brightEntry level i := by
  rw [shadowEntry, if_pos h]

/-- At levels 2 to 5 the halves differ for the colours of row 0 at level 2 only, where the shadow half holds `BLACK` (R75). -/
theorem romRead_halves_ne_iff {level : Level} (c : Color) (h : 2 ≤ level.val) :
    romRead level (brightIndex c) ≠ romRead level (shadowIndex c) ↔ level.val = 2 ∧ c.toNat ≤ 0x0F := by
  rw [romRead_brightIndex, romRead_shadowIndex]
  by_cases htwo : level.val = 2
  · rw [htwo]
    by_cases hrow : c.toNat ≤ 0x0F
    · refine iff_of_true (fun heq => ?_) ⟨rfl, hrow⟩
      have hbright : brightEntry 2 c.toNat = c.toNat := by rw [brightEntry, if_neg (by decide)]; omega
      rw [hbright, shadowEntry_two_of_low hrow, BitVec.ofNat_toNat, BitVec.setWidth_eq] at heq
      rw [heq] at hrow
      exact absurd hrow (by decide)
    · rw [shadowEntry_two_of_row (by omega)]
      exact iff_of_false (fun hne => hne rfl) fun hlow => hrow hlow.2
  · rw [shadowEntry_of_le (by omega)]
    exact iff_of_false (fun hne => hne rfl) fun hlow => htwo hlow.1

/-- The shadow entry at level 2 of a colour of row 0 is `BLACK` (R30, R75). -/
theorem romRead_shadowIndex_black {level : Level} {c : Color} (hlevel : level.val = 2) (hrow : c.toNat ≤ 0x0F) :
    romRead level (shadowIndex c) = 0x2D := by
  rw [romRead_shadowIndex, hlevel, shadowEntry_two_of_low hrow]
  rfl

section OutputLookup
variable (p : Pixel) (c : CfgReg) (r : ShaderState)

/-- The output level lies in 2..5, that of a hidden background being 3 (R75). -/
theorem spectralPass_pshift_range :
    2 ≤ (spectralPass p c r).loc.pshift.val ∧ (spectralPass p c r).loc.pshift.val ≤ 5 := by
  by_cases hshown : backgroundShown c p = true
  · obtain ⟨hge, hle, -⟩ := levelNext_range p c r
    rw [spectralPass_pshift p c r hshown]
    exact ⟨hge, hle⟩
  · rw [(spectralPass_lookup_of_hidden p c r (by simpa using hshown)).2]
    decide

/-- The ROM index candidate ends at one of the two indices of `bgColor` (R69). -/
theorem spectralPass_color_cases :
    (spectralPass p c r).loc.color = brightIndex p.bgColor ∨ (spectralPass p c r).loc.color = shadowIndex p.bgColor := by
  by_cases hshown : backgroundShown c p = true
  · rw [spectralPass_color p c r hshown]
    split_ifs
    · exact .inr rfl
    · exact .inl rfl
  · exact .inl (spectralPass_lookup_of_hidden p c r (by simpa using hshown)).1

/-- Routing to the shadow half shows only for colours of row 0 at level 2, as `BLACK` (R75). -/
theorem spectralPass_routing
    (h : romRead (spectralPass p c r).loc.pshift (spectralPass p c r).loc.color ≠
      romRead (spectralPass p c r).loc.pshift (brightIndex p.bgColor)) :
    p.bgColor.toNat ≤ 0x0F ∧ (spectralPass p c r).loc.pshift.val = 2 ∧
      romRead (spectralPass p c r).loc.pshift (spectralPass p c r).loc.color = 0x2D := by
  obtain hcolor | hcolor := spectralPass_color_cases p c r
  · exact absurd (by rw [hcolor]) h
  · rw [hcolor] at h ⊢
    obtain ⟨hlevel, hrow⟩ := (romRead_halves_ne_iff p.bgColor (spectralPass_pshift_range p c r).1).1 h.symm
    exact ⟨hrow, hlevel, romRead_shadowIndex_black hlevel hrow⟩

end OutputLookup

section Congruence
variable {p q : Pixel} (hedge : edgeColumn p ↔ edgeColumn q) (hindex : p.bgIndex = q.bgIndex) (hcolor : p.bgColor = q.bgColor)
  (hdecision : p.decision = q.decision)
include hedge hindex hcolor

/-- Of a pixel, only the edge condition, `bgIndex` and `bgColor` reach `bgShadow` (R65, R67). -/
theorem bgRaised_congr (r : ShaderState) : bgRaised p r = bgRaised q r := by
  simp only [bgRaised, hedge, hindex, hcolor]

/-- Of a pixel, only the edge condition, `bgIndex` and `bgColor` reach `phase` (R65, R67). -/
theorem phaseNext_congr (r : ShaderState) : phaseNext p r = phaseNext q r := by
  simp only [phaseNext, hedge, hindex, hcolor]

include hdecision

/-- Of a pixel, only the edge condition, `bgIndex`, `bgColor` and `decision` reach the registers (R72). -/
theorem shaderNext_congr (r : ShaderState) : shaderNext p r = shaderNext q r := by
  simp only [shaderNext, spRaised, bgRaised_congr hedge hindex hcolor, phaseNext_congr hedge hindex hcolor, hcolor, hdecision]

/-- Beside what reaches the registers, the parity reaches the output level, and no coordinate does otherwise (R77). -/
theorem levelNext_congr (hparity : parityBit p = parityBit q) (c : CfgReg) (r : ShaderState) :
    levelNext p c r = levelNext q c r := by
  have hsp : spRaised p r = spRaised q r := by rw [spRaised, spRaised, hdecision]
  rw [levelNext, levelNext, hsp, bgRaised_congr hedge hindex hcolor, phaseNext_congr hedge hindex hcolor, hcolor, hparity]

end Congruence

section EndValues
variable (p : Pixel) (r : ShaderState)

/-- What an edge column leaves, whatever the registers before it (R80). -/
theorem shaderNext_of_edgeColumn (h : edgeColumn p) :
    (shaderNext p r).phase.toNat = (if p.bgIndex = 0 then 0 else 6) ∧ (shaderNext p r).bgShadow = 0 := by
  refine ⟨?_, BitVec.eq_of_toNat_eq ?_⟩
  · rw [shaderNext_phase, phaseNext, if_pos h]
  · rw [shaderNext_bgShadow, bgRaised, if_pos h]
    rfl

/-- `bgShadow` only decays where step 1 does not reset it and step 3 does not set it (R65, R67, R68). -/
theorem shaderNext_bgShadow_of_index_ne (hedge : ¬edgeColumn p) (hindex : p.bgIndex ≠ 0) :
    (shaderNext p r).bgShadow.toNat = r.bgShadow.toNat - 1 := by
  rw [shaderNext_bgShadow, bgRaised, if_neg hedge, if_neg fun hset => hindex hset.2.1]

end EndValues

end Sys2Proof.Machine

namespace Sys2Proof.Proofs

open Sys2Proof.Machine Sys2Proof.Reference

/-- Settles O28, from what step 3 leaves in each register, with the dark test read in the listing. -/
theorem phaseTrackingStep : Obligations.PhaseTrackingStep := by
  intro p a
  obtain ⟨hsp, hlast⟩ := trackPhase_frame p a.loc.mute a.regs
  have hphase := trackPhase_phase p a.loc.mute a.regs
  have hbg := trackPhase_bgShadow p a.loc.mute a.regs
  refine ⟨rfl, hlast, hsp, fun hsame => ⟨?_, BitVec.eq_of_toNat_eq ?_⟩,
    fun hchange hmute => ⟨BitVec.eq_of_toNat_eq ?_, BitVec.eq_of_toNat_eq ?_⟩,
    fun hchange hmute => ⟨BitVec.eq_of_toNat_eq ?_, BitVec.eq_of_toNat_eq ?_⟩⟩
  · rwa [if_pos hsame] at hphase
  · rwa [if_neg fun hset => hset.1 hsame] at hbg
  · rwa [if_neg hchange, if_pos hmute] at hphase
  · rwa [if_neg fun hset => by simp [hmute] at hset] at hbg
  · rwa [if_neg hchange, if_neg (by simp [hmute])] at hphase
  · have hbright : romImage 1 (64 + p.bgColor.setWidth 7) ≠ 0x2D ↔ 0x20 ≤ p.bgColor.toNat := by
      rw [ne_eq, romImage_dark_iff, Nat.not_lt]
    simp only [hchange, hmute, ne_eq, not_false_eq_true, true_and] at hbg
    simp only [hbright, phaseStep, hmute, hbg, apply_ite BitVec.toNat]
    rfl

/-- Settles O29: step 4 subtracts in every case, so that it changes nothing with both counters 0; its dark test is the
listing's. -/
theorem shadowDecayStep : Obligations.ShadowDecayStep := by
  intro p a
  obtain ⟨hsp, hbg, hlast, hphase, hloc⟩ := decayStep_spec p a
  refine ⟨fun hsp0 hbg0 => ?_, fun hactive => ⟨hsp, hbg, hlast, hphase, ?_⟩⟩
  · have hidle : ¬shadowActive a.regs = true := fun h => ((shadowActive_iff _).1 h).elim (· hsp0) (· hbg0)
    exact if_neg hidle
  · rw [hloc, (shadowActive_iff _).2 hactive, Bool.true_and]
    simp only [romImage_dark_iff]

/-- Settles O30, from what step 5 selects for a shown background pixel, with its conditions as the rule words them. -/
theorem levelSelectionStep : Obligations.LevelSelectionStep := by
  intro p c a active base
  rw [← backgroundShown_iff]
  refine ⟨fun hhidden => levelStep_of_hidden (fun hshown => (backgroundShown_iff c p).1 hshown hhidden) a, fun hshown => ?_⟩
  obtain ⟨hregs, hmute, hdither⟩ := levelStep_frame p c a
  refine ⟨hregs, hmute, hdither, ?_, ?_⟩
  · simp only [levelStep_color hshown, shadowActive_iff, active]
  · simp only [levelStep_pshift hshown, curveLevel_eq_curveTable, oddParity_iff, shadowActive_iff, active, base]

/-- Settles O32: the pass ends with the registers and the colour of the closed form. -/
theorem spectralEqualsClosedForm : Obligations.SpectralEqualsClosedForm := exec_shadeSpc_eq

/-- Settles O33: the closed form's colour of a sprite pixel is `spColor`, and step 5 writes no register. -/
theorem spritePixelsAreNeverShaded : Obligations.SpritePixelsAreNeverShaded := by
  intro p s hsprite
  refine ⟨_, exec_shadeSpc_eq p s, ?_, ?_, ?_⟩
  · rw [spectralColor, if_pos hsprite]
  · rw [← spectralPass_regs_eq_decayStep, spectralPass_regs]
  · rw [shaderNext_spShadow, spRaised, if_pos hsprite]

/-- Settles O35: step 3 does not meet a muted pass where it would read the flag, and no later step reads it. -/
theorem muteFlagIsUnobservable : Obligations.MuteFlagIsUnobservable := by
  intro p c r before unmuted
  have hmute : p.bgColor ≠ before.regs.lastColor → before.loc.mute = false := mute_eq_false_of_change p c r
  have hpass : levelStep p c (decayStep p (phaseStep p unmuted)) = unmute (spectralPass p c r) := by
    have hunmuted : unmuted = unmute before := rfl
    rw [hunmuted, phaseStep_unmute p hmute, decayStep_unmute, levelStep_unmute]
    rfl
  rw [hpass]
  exact ⟨hmute, rfl, rfl⟩

/-- Settles O36, from the ranges of the two levels and the closed forms of the two halves. -/
theorem outputLevelIsTwoToFive : Obligations.OutputLevelIsTwoToFive := by
  intro p c r a
  refine ⟨curveLevel_range p a.regs, spectralPass_pshift_range p c r, fun hbackground hrouted => ?_,
    fun level i hge _ => romRead_halves_ne_iff i hge⟩
  rw [outputColor, if_neg (by simp [hbackground])]
  exact spectralPass_routing p c r hrouted

/-- Settles O37: the closed form reads the coordinates through the edge condition, which is one on `min(dot, 9)`, and through
the parity. -/
theorem coordinatesMatterOnlyByParity : Obligations.CoordinatesMatterOnlyByParity := by
  intro p
  refine ⟨by rw [← oddParity_iff, oddParity_eq_parityBit], ?_⟩
  intro line dot y x s q hdot hparity
  have hedge : edgeColumn q ↔ edgeColumn p := by
    have hfirst : dot.toNat ≤ 1 ↔ p.dot.toNat ≤ 1 := by omega
    have hmasked : dot.toNat ≤ 8 ↔ p.dot.toNat ≤ 8 := by omega
    exact or_congr hfirst (and_congr_right fun _ => hmasked)
  have hshader : shaderNext q s.shader = shaderNext p s.shader := shaderNext_congr hedge rfl rfl rfl _
  have hcolor : spectralColor q s.cfg s.shader = spectralColor p s.cfg s.shader := by
    rw [spectralColor, levelNext_congr hedge rfl rfl rfl hparity, spectralColor]
  rw [exec_shadeSpc_eq, exec_shadeSpc_eq, hshader, hcolor]

/-- Settles O38: the closed form in an edge column. -/
theorem edgeResetEndValues : Obligations.EdgeResetEndValues := by
  intro p s h
  have hedge : edgeColumn p := (onEdge_iff_edgeColumn p).1 ((onEdge_iff p).2 h)
  obtain ⟨hphase, hbg⟩ := shaderNext_of_edgeColumn p s.shader hedge
  refine ⟨_, exec_shadeSpc_eq p s, hphase, hbg, rfl, fun hbackground => ?_⟩
  rw [shaderNext_spShadow, spRaised, if_neg (by simp [hbackground])]

/-- Settles O39: the closed form of the two counters; the fixed points are its values at 7 and at 0. -/
theorem shadowCountersOverACommand : Obligations.ShadowCountersOverACommand := by
  intro p s
  have hsp := shaderNext_spShadow p s.shader
  refine ⟨_, exec_shadeSpc_eq p s, hsp, fun hsprite h7 => ?_, fun hbackground h0 => ?_, fun hindex hcol hleft => ?_⟩
  · rw [spRaised, if_pos hsprite, h7] at hsp
    exact BitVec.eq_of_toNat_eq hsp
  · rw [spRaised, if_neg (by simp [hbackground]), h0] at hsp
    exact BitVec.eq_of_toNat_eq hsp
  · have hedge : ¬edgeColumn p := not_or.2 ⟨by omega, by simp [hleft]⟩
    exact shaderNext_bgShadow_of_index_ne p s.shader hedge hindex

/-- Settles O40: the registers of the closed form are those of the other pixel. -/
theorem otherOperandsNeverReachTheRegisters : Obligations.OtherOperandsNeverReachTheRegisters := by
  intro p q s s' t t' hs hdot hleft hindex hcolor hdecision ht ht'
  have hedge : edgeColumn p ↔ edgeColumn q := by rw [edgeColumn, hdot, hleft]
  rw [exec_shadeSpc_eq] at ht ht'
  cases ht
  cases ht'
  have hshader := shaderNext_congr hedge hindex hcolor hdecision s.shader
  rwa [← hs]

/-- Settles O25: the meaning of the command is its six steps, and the example's registers are evaluated. -/
theorem spectralRunsItsStepsInOrder : Obligations.SpectralRunsItsStepsInOrder := by
  refine ⟨fun p s => exec_shadeSpc s p, fun w hop hmbz => ?_, decode_of_encode_eq rfl rfl, rfl⟩
  exact raises_reservedBits_of_mbzP (.inr ((opField_eq_iff w 2).2 hop)) (mt (mbzP_eq_zero_iff w).1 hmbz)

/-- Settles O26: step 1 fires in the edge columns. -/
theorem edgeResetStep : Obligations.EdgeResetStep := by
  intro p a
  obtain ⟨hedge, ha⟩ | ⟨hedge, ha⟩ := edgeStep_cases p a
  · rw [if_pos ((onEdge_iff p).1 hedge), ha, ite_not]
  · rw [if_neg (mt (onEdge_iff p).2 (by simp [hedge])), ha]

/-- Settles O27: step 2 writes `spShadow` of a sprite pixel alone, and its sum saturates. -/
theorem spriteShadowStep : Obligations.SpriteShadowStep := by
  intro p a
  refine ⟨fun hbackground => ?_, fun hsprite => ?_, edgeStep_spShadow p a⟩
  · rw [spriteStep, if_neg (by simp [hbackground])]
  · obtain ⟨-, ha⟩ | ⟨hd, -⟩ := spriteStep_cases p a
    · rw [ha]
      exact ⟨bump_toNat a.regs.spShadow, rfl⟩
    · simp [hsprite] at hd

/-- Settles O31: the ROM is the listing, and its level 3 is the identity. -/
theorem outputLookupStep : Obligations.OutputLookupStep := by
  intro p a
  refine ⟨romRead_eq_romImage _ _, fun hsprite hlevel => ?_⟩
  rw [outputColor, if_pos hsprite, hlevel, romRead_neutral_bright]

/-- Settles O34: `LUT` shows the entry of the dark test, and bit 5 is the top bit of a colour. -/
theorem darkTestIsAComparison : Obligations.DarkTestIsAComparison :=
  fun c s => ⟨exec_lut_dark_iff c s, color_lt_iff_getLsbD_five c⟩

end Sys2Proof.Proofs

/-! The control commands (42_control_commands.md): what each writes, its word, and its words with a must-be-zero bit set. The
statements O15 to O18. -/

namespace Sys2Proof

/-- The word of a `CFG` by the formula of R83. -/
theorem encode_cfg_eq_ofNat : ∀ d t : Bool,
    encode (.cfg d t) = BitVec.ofNat 48 (0x800000000000 + 2 * d.toNat + t.toNat) := by decide

/-- The word of a `LUT` by the formula of R84, for level 7 too. -/
theorem encode_lut_eq_ofNat (level : BitVec 3) (index : RomIndex) :
    encode (.lut level index) = BitVec.ofNat 48 (0xA00000000000 + level.toNat * 128 + index.toNat) := by
  apply BitVec.eq_of_toNat_eq
  rw [encode_lut_toNat, BitVec.toNat_ofNat]
  omega

/-- The word of a `LUT` of level 7 has cause 3, that of any other level is the command (R55, R84). -/
theorem decode_encode_lut (level : BitVec 3) (index : RomIndex) :
    decode (encode (.lut level index)) = if level = 7 then .error .romLevel else .ok (.lut level index) := by
  split_ifs with hlevel
  · exact decode_eq_romLevel_iff.2
      ⟨opField_encode_lut level index, mbzL_encode_lut level index, by rw [levelField_encode_lut, hlevel]⟩
  · exact decode_of_encode_eq (bne_iff_ne.2 hlevel) rfl

end Sys2Proof

namespace Sys2Proof.Machine

/-- `LUT` at a level the ROM has answers the entry of the listing of R33 (R84). -/
theorem exec_lut_romImage (level : Level) (index : RomIndex) (s : State) :
    exec (.lut (BitVec.ofNat 3 level.val) index) s = .next (s.respond (.data (romImage level index))) := by
  rw [exec_lut_level s (levelOf_ofNat level), romRead_eq_romImage]

/-- A command other than `CFG` leaves the options as they were (R83). -/
theorem cfg_eq_of_exec_ne_cfg {i : Instr} {s t : State} (h : exec i s = .next t) (hi : ∀ d e, i ≠ .cfg d e) : t.cfg = s.cfg := by
  by_contra hne
  obtain ⟨d, e, heq⟩ := eq_cfg_of_cfg_ne h hne
  exact hi d e heq

end Sys2Proof.Machine

namespace Sys2Proof.Proofs

open Sys2Proof.Machine Sys2Proof.Reference

/-- A word of a control command with one of its format's must-be-zero bits set raises `IllegalCommand` with cause 2 (R55): bits
44:0 of `NOP` and `CLRST`, 44:2 of `CFG`, 44:10 of `LUT`. -/
theorem raises_reservedBits_of_control {w : CmdWord}
    (h : ((hasOp w 0 ∨ hasOp w 3) ∧ w.toNat % 2 ^ 45 ≠ 0) ∨ (hasOp w 4 ∧ w.toNat / 2 ^ 2 % 2 ^ 43 ≠ 0) ∨
      (hasOp w 5 ∧ w.toNat / 2 ^ 10 % 2 ^ 35 ≠ 0)) : raises w .reservedBits := by
  obtain ⟨-, hbits, -, hraises⟩ := illegalWordsAndTheirCauses w
  exact hraises _ (hbits.2 (h.imp_right .inr))

/-- Settles O18: the ROM is the listing, the level decides what the word of a `LUT` is, and R55 gives its must-be-zero bits. -/
theorem lutReadsTheListing : Obligations.LutReadsTheListing := by
  refine ⟨exec_lut_romImage, fun index s => exec_lut_seven s index, fun level index => ?_,
    fun w hop hmbz => raises_reservedBits_of_control (.inr (.inr ⟨hop, hmbz⟩))⟩
  rw [← encode_lut_eq_ofNat]
  exact decode_encode_lut level index

/-- Settles O15: the command writes its response alone, and its word is the encoder's. -/
theorem nopDoesNothing : Obligations.NopDoesNothing :=
  ⟨exec_nop, decode_of_encode_eq rfl rfl, fun _ hop hmbz => raises_reservedBits_of_control (.inl ⟨.inl hop, hmbz⟩)⟩

/-- Settles O16: the command writes the four registers and its response, and its word is the encoder's. -/
theorem clrstZeroesTheRegisters : Obligations.ClrstZeroesTheRegisters :=
  ⟨exec_clrst, decode_of_encode_eq rfl rfl, fun _ hop hmbz => raises_reservedBits_of_control (.inl ⟨.inr hop, hmbz⟩)⟩

/-- Settles O17: the command writes the options and its response, which the next `SHADE.SPC` does not see, and no other command
writes the options. -/
theorem cfgWritesBothOptions : Obligations.CfgWritesBothOptions := by
  refine ⟨fun d t s => exec_cfg s d t, fun d t s s' p h => ?_, fun i s s' => cfg_eq_of_exec_ne_cfg,
    fun d t => decode_of_encode_eq rfl (encode_cfg_eq_ofNat d t),
    fun w hop hmbz => raises_reservedBits_of_control (.inr (.inl ⟨hop, hmbz⟩))⟩
  rw [exec_cfg] at h
  cases h
  exact exec_shadeSpc_respond p (s.setCfg ⟨d, t⟩) .done

end Sys2Proof.Proofs


/-! Exceptions (60_exceptions.md): what an illegal word leaves, what the command after it does, and the mark of a run gone
wrong. The statements O10 to O12 and O56. -/

namespace Sys2Proof.Machine

/-- A command reads neither the response presented nor the place in the input list (R18, R22). -/
theorem exec_with_rsp_pc {i : Instr} {s t : State} (h : exec i s = .next t) (q : Option Response) (n : Nat) :
    exec i { s with rsp := q, pc := n } = .next { t with pc := n } := by
  cases i with
  | nop => rw [exec_nop] at h; cases h; rfl
  | shadeStd p => rw [exec_shadeStd] at h; cases h; rfl
  | shadeSpc p => rw [exec_shadeSpc] at h; cases h; rfl
  | clrst => rw [exec_clrst] at h; cases h; rfl
  | cfg d e => rw [exec_cfg] at h; cases h; rfl
  | lut level index =>
    cases hl : levelOf level with
    | some l => rw [exec_lut_level s hl] at h; cases h; exact exec_lut_level _ hl index
    | none =>
      rw [(levelOf_eq_none level).1 hl] at h ⊢
      rw [exec_lut_seven] at h; cases h; rfl

/-- A step takes one input off those still to come; where none is left, none comes (R18). -/
theorem getElem?_inputs_of_step {s t : State} (h : step s = .next t) (n : Nat) :
    t.inputs[t.pc + n]? = s.inputs[s.pc + (n + 1)]? := by
  by_cases hlt : s.pc < s.inputs.length
  · rw [step_inputs h, step_pc h hlt, Nat.add_assoc, Nat.add_comm 1]
  · have hend : s.inputs.length ≤ s.pc := Nat.not_lt.1 hlt
    rw [step_idle (List.getElem?_eq_none hend)] at h
    cases h
    rw [List.getElem?_eq_none (by omega), List.getElem?_eq_none (by omega)]

/-- No run faults or is refused (R85, R90). -/
theorem run_next (n : Nat) (s : State) : ∃ t : State, Sys2Proof.core.run n s = .next t := by
  induction n generalizing s with
  | zero => exact ⟨s, rfl⟩
  | succ n ih =>
    obtain ⟨u, hu⟩ := step_next s
    obtain ⟨t, hrun⟩ := ih u
    exact ⟨t, (Safety.run_succ Sys2Proof.core hu n).trans hrun⟩

/-- The input taken after a run is the one as many places on as the run is long (R18). -/
theorem fetch_of_run {n : Nat} {s t : State} (h : Sys2Proof.core.run n s = .next t) : fetch t = s.inputs[s.pc + n]? := by
  induction n generalizing s with
  | zero => cases h; rfl
  | succ n ih =>
    obtain ⟨u, hu⟩ := step_next s
    rw [Safety.run_succ Sys2Proof.core hu] at h
    exact (ih h).trans (getElem?_inputs_of_step hu n)

end Sys2Proof.Machine

namespace Sys2Proof.Safety

open Sys2Proof.Machine

/-- A run goes on by the step of the state it leads to. -/
theorem run_succ_last (M : Host.Core) {n : Nat} {s t u : M.State} (h : M.run n s = .next t) (hstep : M.step t = .next u) :
    M.run (n + 1) s = .next u := by
  induction n generalizing s with
  | zero => cases h; exact run_succ M hstep 0
  | succ n ih =>
    cases hs : M.step s with
    | next v => rw [run_succ M hs] at h ⊢; exact ih h
    | fault r => simp [Host.Core.run, hs] at h
    | refused r => simp [Host.Core.run, hs] at h

/-- The first cause of a run one step longer: that of the run before, or else what its last input raises (R87). -/
theorem runCause_succ_last {k : Nat} {s t : State} (h : Sys2Proof.core.run k s = .next t) :
    runCause (k + 1) s = (runCause k s).or (raisedNow t) := by
  induction k generalizing s with
  | zero =>
    cases h
    obtain ⟨u, hu⟩ := step_next t
    cases hr : raisedNow t with
    | none => exact runCause_step hr hu
    | some c => exact runCause_raised hr
  | succ k ih =>
    obtain ⟨u, hu⟩ := step_next s
    cases hr : raisedNow s with
    | none =>
      rw [run_succ Sys2Proof.core hu] at h
      rw [runCause_step hr hu, runCause_step hr hu, ih h]
    | some c => rw [runCause_raised hr, runCause_raised hr, Option.some_or]

/-- A run one step longer has gone wrong when the run had, or when its last input is an illegal word. -/
theorem runWentWrong_succ (k : Nat) (s : State) :
    runWentWrong (k + 1) s = true ↔ runWentWrong k s = true ∨
      ∃ w c, s.inputs[s.pc + k]? = some (.command w) ∧ decode w = .error c := by
  obtain ⟨t, ht⟩ := run_next k s
  have hlast : (raisedNow t).isSome = true ↔ ∃ w c, s.inputs[s.pc + k]? = some (.command w) ∧ decode w = .error c := by
    rw [Option.isSome_iff_exists, exists_comm]
    simp only [raisedNow_eq_some, fetch_of_run ht]
  rw [← hlast, ← Bool.or_eq_true, runWentWrong, runCause_succ_last ht, Option.isSome_or, runWentWrong]

/-- A run has gone wrong exactly when an input it takes is an illegal word (R87). -/
theorem runWentWrong_iff (k : Nat) (s : State) :
    runWentWrong k s = true ↔
      ∃ n w c, n < k ∧ s.inputs[s.pc + n]? = some (.command w) ∧ decode w = .error c := by
  induction k with
  | zero => simp [runWentWrong]
  | succ k ih =>
    rw [runWentWrong_succ, ih]
    constructor
    · rintro (⟨n, w, c, hn, hw⟩ | ⟨w, c, hw⟩)
      · exact ⟨n, w, c, by omega, hw⟩
      · exact ⟨k, w, c, by omega, hw⟩
    · rintro ⟨n, w, c, hn, hw⟩
      obtain hlt | rfl := Nat.lt_succ_iff_lt_or_eq.1 hn
      · exact .inl ⟨n, w, c, hlt, hw⟩
      · exact .inr ⟨w, c, hw⟩

/-- The cause of a run was raised by the state before which the run had not gone wrong (R87). -/
theorem exists_raisedNow_of_runCause {k : Nat} {s : State} {c : Cause} (h : runCause k s = some c) :
    ∃ (n : Nat) (t : State), n < k ∧ runWentWrong n s = false ∧ Sys2Proof.core.run n s = .next t ∧ raisedNow t = some c := by
  induction k with
  | zero => cases h
  | succ k ih =>
    obtain ⟨t, ht⟩ := run_next k s
    rw [runCause_succ_last ht] at h
    cases hk : runCause k s with
    | none =>
      rw [hk, Option.none_or] at h
      exact ⟨k, t, by omega, by rw [runWentWrong, hk]; rfl, ht, h⟩
    | some d =>
      rw [hk, Option.some_or] at h
      obtain ⟨n, u, hn, hrest⟩ := ih (hk.trans h)
      exact ⟨n, u, by omega, hrest⟩

end Sys2Proof.Safety

namespace Sys2Proof.Proofs

open Sys2Proof.Machine Sys2Proof.Safety Sys2Proof.Reference

/-- A step on a word that decodes answers other than by `ERR` (R85): the word is well-formed, and legal commands complete. -/
theorem step_not_answeredErr {s : State} {w : CmdWord} {i : Instr} (hw : fetch s = some (.command w))
    (hi : decode w = .ok i) : ∃ t, step s = .next t ∧ answeredErr t = false := by
  obtain ⟨hwf, -⟩ := decodedWordIsTheEncoding w i hi
  obtain ⟨u, hu, herr⟩ := legalCommandsComplete i s hwf
  exact ⟨advance u, by rw [step_command hw hi, hu, advanced], herr⟩

/-- Settles O11: the illegal word leaves a state that differs in the response and the place alone, which a command does not
read. -/
theorem commandAfterIllegalRunsNormally : Obligations.CommandAfterIllegalRunsNormally := by
  intro s w v c i hw hc hv hi
  obtain ⟨r, o, q, ht⟩ := exec_next i s
  have hfirst : step s = .next (advance (raiseIllegal c s)) := step_illegal hw hc
  have hexec : exec i (advance (raiseIllegal c s)) = _ := exec_with_rsp_pc ht (some (.err c)) (s.pc + 1)
  have hsecond := step_command (s := advance (raiseIllegal c s)) hv hi
  rw [hexec] at hsecond
  exact ⟨_, _, ht, run_succ_last Sys2Proof.core (run_succ Sys2Proof.core hfirst 0) hsecond, rfl, rfl, rfl, rfl, rfl⟩

/-- Settles O56, from the mark of a run one step longer: the further step adds what its input raises, and that input is read in
the list; where it raises nothing, it is a legal command. -/
theorem runGoesWrongOnIllegalWords : Obligations.RunGoesWrongOnIllegalWords := by
  intro k s
  refine ⟨runWentWrong_iff k s, fun c hcause => ?_, fun hright n w hn hw => ?_⟩
  · obtain ⟨n, t, hn, hbefore, hrun, hraised⟩ := exists_raisedNow_of_runCause hcause
    obtain ⟨w, hw, hc⟩ := raisedNow_eq_some.1 hraised
    have hinput := (fetch_of_run hrun).symm.trans hw
    exact ⟨n, w, _, hn, hbefore, hinput, hc, run_succ_last Sys2Proof.core hrun (step_illegal hw hc), rfl⟩
  · obtain ⟨t, hrun⟩ := run_next n s
    cases hd : decode w with
    | error c => exact absurd ((runWentWrong_iff k s).2 ⟨n, w, c, hn, hw, hd⟩) (by simp [hright])
    | ok i =>
      obtain ⟨u, hu, herr⟩ := step_not_answeredErr ((fetch_of_run hrun).trans hw) hd
      exact ⟨u, run_succ_last Sys2Proof.core hrun hu, herr⟩

/-- Settles O10: the step writes the response and the place, and the ROM is no part of the state. -/
theorem illegalWordChangesNothing : Obligations.IllegalWordChangesNothing := by
  intro s w c hw hc
  exact ⟨_, step_illegal hw hc, rfl, rfl, rfl, rfl, rfl, fun level index => responseOf_lut_eq level index _ s⟩

/-- Settles O12: at or beyond the end of the list there is no input to take. -/
theorem noInputHoldsEverything : Obligations.NoInputHoldsEverything :=
  fun _ hend => step_idle (List.getElem?_eq_none hend)

end Sys2Proof.Proofs


/-! Reset and hazards (70_reset_and_hazards.md): `RESET`, the first pixel after `CLRST`, and what a `CFG` reaches. The statements
O13, O42 and O43. -/

namespace Sys2Proof.Machine

open Sys2Proof.Reference

/-- Outside the edge columns: neither `dot` < 2, nor the left mask active with `dot` < 9 (R65). -/
theorem not_edgeColumn {p : Pixel} (hdot : 2 ≤ p.dot.toNat) (hmask : p.showLeft = true ∨ 9 ≤ p.dot.toNat) : ¬edgeColumn p := by
  rintro (hcol | ⟨hleft, hcol⟩)
  · omega
  · obtain hleft' | hdot' := hmask
    · exact Bool.false_ne_true (hleft.symm.trans hleft')
    · omega

section Cleared
variable {p : Pixel} (hedge : ¬edgeColumn p)
include hedge

/-- Over cleared registers colour 0x00 continues `lastColor`, with `phase` at 0 already; any other colour is a change (R103). -/
theorem shaderNext_cleared_phase : (shaderNext p ⟨0, 0, 0, 0⟩).phase = if p.bgColor = 0 then 0 else 14 := by
  apply BitVec.eq_of_toNat_eq
  rw [shaderNext_phase, phaseNext, if_neg hedge]
  by_cases hcolor : p.bgColor = 0
  · rw [if_pos hcolor, if_pos hcolor]
    exact ite_self 0
  · rw [if_neg hcolor, if_neg hcolor]
    rfl

/-- Over cleared registers a universal background of a colour from 0x20 on, hence a change, sets `bgShadow` to 3, one of which
decays at once; in any other case it stays 0 (R103). -/
theorem shaderNext_cleared_bgShadow :
    (shaderNext p ⟨0, 0, 0, 0⟩).bgShadow = if p.bgIndex = 0 ∧ 0x20 ≤ p.bgColor.toNat then 2 else 0 := by
  apply BitVec.eq_of_toNat_eq
  rw [shaderNext_bgShadow, bgRaised, if_neg hedge]
  by_cases hset : p.bgIndex = 0 ∧ 0x20 ≤ p.bgColor.toNat
  · have hchange : p.bgColor ≠ 0 := fun hzero => by simp [hzero] at hset
    rw [if_pos ⟨hchange, hset⟩, if_pos hset]
    rfl
  · rw [if_neg fun h => hset h.2, if_neg hset]
    rfl

end Cleared

end Sys2Proof.Machine

namespace Sys2Proof.Proofs

open Sys2Proof.Machine Sys2Proof.Reference

/-- Settles O42: the closed form takes its registers from the registers alone, which a `CFG` keeps, and its colour from the options
too. -/
theorem optionsChangeOnlyResponses : Obligations.OptionsChangeOnlyResponses := by
  intro d e p s t ht
  rw [exec_cfg] at ht
  cases ht
  exact ⟨_, _, exec_shadeSpc_eq p _, exec_shadeSpc_eq p s, rfl, rfl, rfl⟩

/-- Settles O43: the closed form over cleared registers. -/
theorem firstPixelAfterClear : Obligations.FirstPixelAfterClear := by
  intro p s t ht hdot hmask
  have hedge := not_edgeColumn hdot hmask
  rw [exec_clrst] at ht
  cases ht
  exact ⟨_, exec_shadeSpc_eq p _, shaderNext_cleared_phase hedge, shaderNext_cleared_bgShadow hedge⟩

/-- Settles O13: the step takes the event, whether or not it catches a command in progress, and moves on. -/
theorem resetEventFromEveryState : Obligations.ResetEventFromEveryState :=
  fun _ _ hreset => step_reset hreset

end Sys2Proof.Proofs
